-- ==== Sys2Proof/Word.lean ====
section
/-!
DEFINITION. The words at DMC's interface and the closed sets of names its encodings use: the four timer
channels (30_encoding.md R89) and the sixteen read indexes (20_memory.md R66). The numbers that encode them
are in Decode.lean.
-/

namespace Sys2Proof

/-- A command word or a read value: 16 bits (30_encoding.md R80, 10_state.md R41). -/
abbrev Word := BitVec 16

/-- A DisplayBuffer pair or a source-field latch: 8 bits (10_state.md R21, R24). -/
abbrev Byte := BitVec 8

/-- One decimal digit of a pair: 4 bits (00_scope.md R11). -/
abbrev Nibble := BitVec 4

/-- The four timer channels of 30_encoding.md R89. -/
inductive Channel where
  /-- Base period: starts the blanking window of the next phase. -/
  | a
  /-- One-shot of the blanking duration. -/
  | b
  /-- Set-mode repeat ticker. -/
  | c
  /-- Animation-step cadence. -/
  | d
  deriving DecidableEq, Repr, Inhabited

/-- The names of the register read map, 20_memory.md R66. Every index of RD is mapped. -/
inductive ReadIndex where
  | pair0 | pair1 | pair2
  | drive | muxstat | rollstat | faultstat
  | tSec | tMin | tHour
  | dDay | dMonth | dYsuf
  | uSec | uMin | uHour
  deriving DecidableEq, Repr, Inhabited

/-- What the environment presents to one step: a command word (00_scope.md R16, 30_encoding.md R80) or the
RESET input (70_reset_and_hazards.md R250). -/
inductive Input where
  | command (w : Word)
  | reset
  deriving DecidableEq, Repr, Inhabited

end Sys2Proof
end

