-- ==== Sys2Proof/Syntax.lean ====
section
/-!
DEFINITION. The ten commands of spec/opcode_table.json (30_encoding.md R83), one constructor per row, with the
operands of the row's format (R81). An operand that a command's rule checks keeps its raw bits (R82, R86).
-/

namespace Sys2Proof

/-- A decoded command. -/
inductive Instr where
  /-- 43_control.md R203. -/
  | nop
  /-- 42_multiplexing.md R170. Every channel code is legal. -/
  | fire (ch : Channel)
  /-- 42_multiplexing.md R171. -/
  | dispatch
  /-- 40_display_buffer.md R110. -/
  | tick
  /-- 40_display_buffer.md R112: pair index `w[9:8]`, packed BCD byte `w[7:0]`. -/
  | wpair (p : BitVec 2) (d : Byte)
  /-- 40_display_buffer.md R113: view code `w[1:0]`. -/
  | setview (v : BitVec 2)
  /-- 43_control.md R200: new SETTING `w[1]`, new BLINK `w[0]`. -/
  | setctl (setting blink : Bool)
  /-- 40_display_buffer.md R114: field code `w[11:8]`, binary value `w[7:0]`. -/
  | ldsrc (f : BitVec 4) (n : Byte)
  /-- 43_control.md R201. Every read index is mapped. -/
  | rd (r : ReadIndex)
  /-- 43_control.md R202. -/
  | clrerr
  deriving DecidableEq, Repr, Inhabited

end Sys2Proof
end

