-- ==== Sys2Proof/WellFormed.lean ====
section
/-!
DEFINITION. Which commands name only legal operand values. The widths of the operands are their types, so every
`Instr` has a word; the values 30_encoding.md R86 lists are the ones a command's rule refuses (and an assembler
may reject, R90). An ill-formed command still decodes and still executes: its meaning records the fault.
-/

namespace Sys2Proof

/-- WPAIR's pair index is 0 to 2 (30_encoding.md R86). -/
def pairIndexLegal (p : BitVec 2) : Bool := p != 3#2

/-- Both nibbles of WPAIR's byte are decimal digits (30_encoding.md R86). -/
def bcdLegal (d : Byte) : Bool := d.extractLsb' 4 4 ≤ 9#4 && d.extractLsb' 0 4 ≤ 9#4

/-- SETVIEW's view code is 0 to 2 (30_encoding.md R86). -/
def viewLegal (v : BitVec 2) : Bool := v != 3#2

/-- LDSRC's field code is 0 to 8 (30_encoding.md R86). -/
def fieldLegal (f : BitVec 4) : Bool := f < 9#4

/-- LDSRC's value is 0 to 99 (30_encoding.md R86). -/
def valueLegal (n : Byte) : Bool := n ≤ 99#8

/-- The command names no reserved field value of 30_encoding.md R86. -/
def Instr.wellFormed : Instr → Bool
  | .nop => true
  | .fire _ => true
  | .dispatch => true
  | .tick => true
  | .wpair p d => pairIndexLegal p && bcdLegal d
  | .setview v => viewLegal v
  | .setctl _ _ => true
  | .ldsrc f n => fieldLegal f && valueLegal n
  | .rd _ => true
  | .clrerr => true

end Sys2Proof
end

