-- ==== Sys2Proof/Decode.lean ====
section
/-!
DEFINITION. The decoder, total on every 16-bit word (30_encoding.md R88), and after it the encoder. Both read the
opcode map of R83 and the formats of R81.
-/

namespace Sys2Proof

/-! ### Codes of the named operands -/

/-- The channel code of 30_encoding.md R89; it is also the bit index in PEND and OVR. -/
def Channel.code : Channel → BitVec 2
  | .a => 0
  | .b => 1
  | .c => 2
  | .d => 3

/-- The channel a code of FIRE names (30_encoding.md R89). -/
def channelOfCode (c : BitVec 2) : Channel :=
  match c.toNat with
  | 0 => .a
  | 1 => .b
  | 2 => .c
  | _ => .d

/-- The read index of a register name (20_memory.md R66). -/
def ReadIndex.code : ReadIndex → BitVec 4
  | .pair0 => 0x0
  | .pair1 => 0x1
  | .pair2 => 0x2
  | .drive => 0x3
  | .muxstat => 0x4
  | .rollstat => 0x5
  | .faultstat => 0x6
  | .tSec => 0x7
  | .tMin => 0x8
  | .tHour => 0x9
  | .dDay => 0xA
  | .dMonth => 0xB
  | .dYsuf => 0xC
  | .uSec => 0xD
  | .uMin => 0xE
  | .uHour => 0xF

/-- The register a read index of RD names (20_memory.md R66). -/
def readIndexOfCode (r : BitVec 4) : ReadIndex :=
  match r.toNat with
  | 0x0 => .pair0
  | 0x1 => .pair1
  | 0x2 => .pair2
  | 0x3 => .drive
  | 0x4 => .muxstat
  | 0x5 => .rollstat
  | 0x6 => .faultstat
  | 0x7 => .tSec
  | 0x8 => .tMin
  | 0x9 => .tHour
  | 0xA => .dDay
  | 0xB => .dMonth
  | 0xC => .dYsuf
  | 0xD => .uSec
  | 0xE => .uMin
  | _ => .uHour

/-! ### The opcode map -/

/-- The defined opcodes of 30_encoding.md R83. -/
inductive Opcode where
  | nop | fire | dispatch | tick | wpair | setview | setctl | ldsrc | rd | clrerr
  deriving DecidableEq, Repr

/-- The row that `w[15:12]` selects; none for 0xA to 0xF (30_encoding.md R83, R84). -/
def opcodeOfBits (op : BitVec 4) : Option Opcode :=
  match op.toNat with
  | 0x0 => some .nop
  | 0x1 => some .fire
  | 0x2 => some .dispatch
  | 0x3 => some .tick
  | 0x4 => some .wpair
  | 0x5 => some .setview
  | 0x6 => some .setctl
  | 0x7 => some .ldsrc
  | 0x8 => some .rd
  | 0x9 => some .clrerr
  | _ => none

/-- The match column of 30_encoding.md R83. -/
def Opcode.pattern : Opcode → Word
  | .nop => 0x0000
  | .fire => 0x1000
  | .dispatch => 0x2000
  | .tick => 0x3000
  | .wpair => 0x4000
  | .setview => 0x5000
  | .setctl => 0x6000
  | .ldsrc => 0x7000
  | .rd => 0x8000
  | .clrerr => 0x9000

/-- The mask column of 30_encoding.md R83. -/
def Opcode.mask : Opcode → Word
  | .nop => 0xFFFF
  | .fire => 0xFFFC
  | .dispatch => 0xFFFF
  | .tick => 0xFFFF
  | .wpair => 0xFC00
  | .setview => 0xFFFC
  | .setctl => 0xFFFC
  | .ldsrc => 0xF000
  | .rd => 0xFFF0
  | .clrerr => 0xFFFF

/-! ### Decoding -/

/-- `w[15:12]` (30_encoding.md R80). -/
def opcodeBits (w : Word) : BitVec 4 := w.extractLsb' 12 4

/-- The command of a word that matches its row, with the fields of the row's format (30_encoding.md R81, R82). -/
def instrOfFields (o : Opcode) (w : Word) : Instr :=
  match o with
  | .nop => .nop
  | .fire => .fire (channelOfCode (w.extractLsb' 0 2))
  | .dispatch => .dispatch
  | .tick => .tick
  | .wpair => .wpair (w.extractLsb' 8 2) (w.extractLsb' 0 8)
  | .setview => .setview (w.extractLsb' 0 2)
  | .setctl => .setctl (w.getLsbD 1) (w.getLsbD 0)
  | .ldsrc => .ldsrc (w.extractLsb' 8 4) (w.extractLsb' 0 8)
  | .rd => .rd (readIndexOfCode (w.extractLsb' 0 4))
  | .clrerr => .clrerr

/-- Why a word is no command. Both reasons raise ILLEGAL_CMD (30_encoding.md R84, R85). -/
inductive IllegalWord where
  /-- The opcode is 0xA to 0xF (R84). -/
  | reservedOpcode
  /-- A bit the format marks 0 is 1 (R85). -/
  | reservedBits
  deriving DecidableEq, Repr

/-- The decoding procedure of 30_encoding.md R88: the row for the opcode, its mask and match, its fields. -/
def decode (w : Word) : Except IllegalWord Instr :=
  match opcodeOfBits (opcodeBits w) with
  | none => .error .reservedOpcode
  | some o => if w &&& o.mask = o.pattern then .ok (instrOfFields o w) else .error .reservedBits

/-- The decoder on a row of spec/opcode_table.json: the low `nbits` bits of `w`, the bits above them 0. A command is
one word, so nothing follows it (30_encoding.md R80). -/
def decodeTableWord (nbits w : Nat) : Option Instr :=
  match decode (BitVec.ofNat 16 (w % 2 ^ nbits)) with
  | .ok i => some i
  | .error _ => none

/-! ### Encoding -/

/-- The row of a command (30_encoding.md R83). -/
def Instr.opcode : Instr → Opcode
  | .nop => .nop
  | .fire _ => .fire
  | .dispatch => .dispatch
  | .tick => .tick
  | .wpair _ _ => .wpair
  | .setview _ => .setview
  | .setctl _ _ => .setctl
  | .ldsrc _ _ => .ldsrc
  | .rd _ => .rd
  | .clrerr => .clrerr

/-- The operand bits of a command, each field at the place its format gives it (30_encoding.md R81, R90). -/
def Instr.fieldBits : Instr → Word
  | .nop => 0
  | .fire ch => ch.code.zeroExtend 16
  | .dispatch => 0
  | .tick => 0
  | .wpair p d => p.zeroExtend 16 <<< 8 ||| d.zeroExtend 16
  | .setview v => v.zeroExtend 16
  | .setctl s b => (BitVec.ofBool s).zeroExtend 16 <<< 1 ||| (BitVec.ofBool b).zeroExtend 16
  | .ldsrc f n => f.zeroExtend 16 <<< 8 ||| n.zeroExtend 16
  | .rd r => r.code.zeroExtend 16
  | .clrerr => 0

/-- The word of a command: the row's match with the operand fields filled in (30_encoding.md R81, R83, R90). -/
def encode (i : Instr) : Word := i.opcode.pattern ||| i.fieldBits

end Sys2Proof
end

