-- ==== Sys2Proof/Config.lean ====
section
/-!
DEFINITION. DMC's fixed parameters (00_scope.md R7), and the constants without a body: the environment's free
schedule, the parameters the spec leaves OPEN, and the values of helpers outside the operands the spec
defines them on. Nothing can evaluate a constant without a body, so a theorem holds whatever it is.
-/

namespace Sys2Proof.Config

/-- N_PHASE, the display positions (00_scope.md R7). -/
abbrev nPhase : Nat := 6

/-- N_PAIR, the digit pairs of the DisplayBuffer (00_scope.md R7). -/
abbrev nPair : Nat := 3

/-- The source-field latches (00_scope.md R7, 10_state.md R24). -/
abbrev nField : Nat := 9

/-- The digit radix (00_scope.md R7). -/
abbrev radix : Nat := 10

/-- ROLL_FLOOR is tested as `over > 9`: this is the 9 (00_scope.md R7). -/
abbrev rollFloor : Nat := 9

/-- The value at which OVER saturates (00_scope.md R7, 41_animation.md R140). -/
abbrev overMax : Nat := 31

/-- The largest value a source-field latch accepts (40_display_buffer.md R114). -/
abbrev fieldMax : Nat := 99

/-- FREE VALUE. The input the environment presents at its n-th draw: "every order is admitted. The order is a
free schedule (a draw per step)" (93_implementation_defined.md Part 1; 60_exceptions.md R229). Used only where
State lists no input to come. Log 2. -/
opaque freeInput : Nat → Input

/-- FREE VALUE. toBCD of a value above 99, where 00_scope.md R12 does not define it. No run reaches it,
because every latch holds 0 to 99 (10_state.md R24). Log 9. -/
opaque toBCDAbove99 : Byte → Byte

/-- FREE VALUE. inc10 of a nibble above 9, where 00_scope.md R13 does not define it. No run reaches it
(10_state.md R22). Log 9. -/
opaque inc10Above9 : Nibble → Nibble

/-- FREE VALUE. The cathode pattern of a digit above 9, for which 42_multiplexing.md R176 names no line. No run
reaches it (10_state.md R22). Log 9. -/
opaque cathodeAbove9 : Nibble → BitVec 10

/-- OPEN parameter T_A, the period of channel A (00_scope.md R8). No rule reads it. Log 8. -/
opaque periodA : Nat

/-- OPEN parameter T_B, the blanking duration of channel B (00_scope.md R8). No rule reads it. Log 8. -/
opaque durationB : Nat

/-- OPEN parameter T_C, the rate of channel C (00_scope.md R8). No rule reads it. Log 8. -/
opaque rateC : Nat

/-- OPEN parameter T_D, the period of channel D (00_scope.md R8). No rule reads it. Log 8. -/
opaque periodD : Nat

/-- OPEN parameter T_TICK, the period of the system tick (00_scope.md R8). No rule reads it. Log 8. -/
opaque periodTick : Nat

/-- OPEN parameter DMC_BASE, the block's placement on a bus (20_memory.md R67). No rule reads it. Log 8. -/
opaque dmcBase : Nat

/-- Board wiring: the physical tube each anode line drives (42_multiplexing.md R175). No rule reads it. Log 8. -/
opaque tubeOfAnode : Fin 6 → Fin 6

end Sys2Proof.Config
end

