-- ==== Sys2Proof/Machine/State.lean ====
section
/-!
DEFINITION. The state of DMC as plain data: the registers of 10_state.md R44, the outputs of the last step, and
what the environment will present; the state after reset; the reasons a step can stop.
-/

namespace Sys2Proof.Machine

/-- The views of 10_state.md R25: the values VIEW and LAST_VIEW (2 bits each) hold. Code 3 is never held. -/
inductive View where
  | time
  | date
  | userData
  deriving DecidableEq, Repr, Inhabited

/-- Which occurrence of channel B is due: the values B_STAGE (2 bits) holds, 10_state.md R30. Code 3 is never
held. -/
inductive BStage where
  | idle
  | cath
  | anode
  deriving DecidableEq, Repr, Inhabited

/-- The fault causes of 60_exceptions.md R221: the values CAUSE (4 bits) holds. Codes 7 to 15 are never
recorded. -/
inductive Cause where
  | none
  | illegalCmd
  | badPair
  | badBcd
  | badView
  | badField
  | range
  deriving DecidableEq, Repr, Inhabited

/-- The output strobes of 10_state.md R40. -/
inductive Strobe where
  | armB
  | cTick
  | rollDone
  deriving DecidableEq, Repr, Inhabited

/-- The state of DMC. The sixteen registers of 10_state.md R44 first, then the output ports, then the model's own
fields for the environment. -/
@[ext]
structure State where
  /-- PAIR[0..2], 8 bits each: the DisplayBuffer (R21). -/
  pair : Vector Byte 3
  /-- SRC[0..8], 8 bits each: the source-field latches (R24). -/
  src : Vector Byte 9
  /-- VIEW, 2 bits (R25). -/
  view : View
  /-- LAST_VIEW, 2 bits (R26). -/
  lastView : View
  /-- BLINK, 1 bit (R27). -/
  blink : Bool
  /-- SETTING, 1 bit (R28). -/
  setting : Bool
  /-- PHASE, 3 bits, values 0 to 5 (R29). -/
  phase : Fin 6
  /-- B_STAGE, 2 bits (R30). -/
  bStage : BStage
  /-- CATHODE, 10 lines (R31). -/
  cathode : BitVec 10
  /-- ANODE, 6 lines (R32). -/
  anode : BitVec 6
  /-- PEND, 4 bits, bit index = channel code (R33). -/
  pend : BitVec 4
  /-- OVR, 4 bits, bit index = channel code (R34). -/
  ovr : BitVec 4
  /-- ROLLING, 1 bit (R35). -/
  rolling : Bool
  /-- OVER, 5 bits (R36). -/
  overCount : BitVec 5
  /-- FAULT, 1 bit (R37). -/
  fault : Bool
  /-- CAUSE, 4 bits (R37). -/
  cause : Cause
  /-- Output port: the strobes the last step emitted, in emission order (R40). No rule reads it. Log 4. -/
  strobes : List Strobe
  /-- Output port: the read data the last step returned (R41). No rule reads it. Log 4. -/
  rdata : Option Word
  /-- The model's own: what the environment will present, first to be consumed first. Log 1. -/
  presented : List Input
  /-- The model's own: how many inputs of the free schedule have been consumed. Log 2. -/
  draws : Nat
  deriving DecidableEq, Repr

/-- The state right after reset (10_state.md R44, 70_reset_and_hazards.md R250). The spec gives every register's
value. The last two fields are the model's own: DESIGN CHOICE, log 1 and log 2. -/
def State.reset : State where
  pair := #v[0x00, 0x00, 0x00]
  src := #v[12, 1, 0, 31, 12, 17, 0, 0, 0]
  view := .time
  lastView := .time
  blink := false
  setting := false
  phase := 5
  bStage := .idle
  cathode := 0
  anode := 0
  pend := 0
  ovr := 0
  rolling := false
  overCount := 0
  fault := false
  cause := .none
  strobes := []
  rdata := none
  presented := []
  draws := 0

/-- Reasons a step stops with a fault: none. A fault of the spec is a record in FAULT and CAUSE, and "a fault never
stops DMC" (60_exceptions.md R220), which "never halts" (70_reset_and_hazards.md R259). The type has no
constructor, so a fault can end no step: this is as the spec says. Log 6. -/
inductive Fault
  deriving DecidableEq, Repr

/-- Reasons a step is refused. -/
inductive Refusal where
  /-- Raised by an arm of `exec` whose command has no meaning yet. Safe: the step stops where DMC goes on. No arm
  raises it, because every command has its meaning. -/
  | notModelled (mnemonic : String)
  deriving DecidableEq, Repr

end Sys2Proof.Machine
end

