-- ==== Sys2Proof/Machine/Operands.lean ====
section
/-!
DEFINITION. Operand forms: the nibble and BCD helpers of 00_scope.md R11 to R13, the index fields that a command's
rule checks (30_encoding.md R86), the view's fields and targets (R14), and the codes of the enumerated registers.
-/

namespace Sys2Proof.Machine

/-! ### Nibbles and digits -/

/-- `lo(b) = b[3:0]`, the units digit (00_scope.md R11). -/
def lo (b : Byte) : Nibble := b.extractLsb' 0 4

/-- `hi(b) = b[7:4]`, the tens digit (00_scope.md R11). -/
def hi (b : Byte) : Nibble := b.extractLsb' 4 4

/-- `nib(b, k)`: the low nibble for k = 0, the high one for k = 1 (00_scope.md R11). -/
def nib (b : Byte) (k : Fin 2) : Nibble := if k = 0 then lo b else hi b

/-- `mk(h, l) = {h[3:0], l[3:0]}` (00_scope.md R11). -/
def mk (h l : Nibble) : Byte := h ++ l

/-- A byte whose two nibbles are digits 0 to 9 (10_state.md R22). -/
def isBCD (b : Byte) : Bool := (lo b).toNat ≤ 9 && (hi b).toNat ≤ 9

/-- `toBCD(n)` (00_scope.md R12). Above 99 the spec does not define it: a free value, log 9. -/
def toBCD (n : Byte) : Byte :=
  if n.toNat ≤ 99 then mk (BitVec.ofNat 4 (n.toNat / 10)) (BitVec.ofNat 4 (n.toNat % 10))
  else Config.toBCDAbove99 n

/-- `inc10(n) = (n + 1) mod 10` (00_scope.md R13). Above 9 the spec does not define it: a free value, log 9. -/
def inc10 (n : Nibble) : Nibble :=
  if n.toNat ≤ 9 then BitVec.ofNat 4 ((n.toNat + 1) % 10) else Config.inc10Above9 n

/-- The cathode pattern `1 << d` of a digit d (42_multiplexing.md R176). Above 9 it has no line: a free value,
log 9. -/
def cathodePattern (d : Nibble) : BitVec 10 :=
  if d.toNat ≤ 9 then 1#10 <<< d.toNat else Config.cathodeAbove9 d

/-- The anode line of a display position: `1 << PHASE` (42_multiplexing.md R173, R175). -/
def anodeLine (q : Fin 6) : BitVec 6 := 1#6 <<< q.val

/-! ### Index fields that the command's rule checks -/

/-- WPAIR's pair index; 3 names no pair (40_display_buffer.md R112). -/
def pairOfIndex (p : BitVec 2) : Option (Fin 3) :=
  if h : p.toNat < 3 then some ⟨p.toNat, h⟩ else none

/-- SETVIEW's view code; 3 names no view (40_display_buffer.md R113). -/
def viewOfCode (v : BitVec 2) : Option View :=
  match v.toNat with
  | 0 => some .time
  | 1 => some .date
  | 2 => some .userData
  | _ => none

/-- LDSRC's field code; 9 to 15 name no latch (40_display_buffer.md R114). -/
def fieldOfCode (f : BitVec 4) : Option (Fin 9) :=
  if h : f.toNat < 9 then some ⟨f.toNat, h⟩ else none

/-! ### Codes of the enumerated registers -/

/-- The code of a view (10_state.md R25). -/
def View.code : View → BitVec 2
  | .time => 0
  | .date => 1
  | .userData => 2

/-- The code of a stage (10_state.md R30). -/
def BStage.code : BStage → BitVec 2
  | .idle => 0
  | .cath => 1
  | .anode => 2

/-- The code of a cause (60_exceptions.md R221). -/
def Cause.code : Cause → BitVec 4
  | .none => 0
  | .illegalCmd => 1
  | .badPair => 2
  | .badBcd => 3
  | .badView => 4
  | .badField => 5
  | .range => 6

/-! ### The view's fields and targets -/

/-- The latch that view v shows in pair p: `3*v + p` (00_scope.md R14, 10_state.md R24). -/
def fieldIndex (v : View) (p : Fin 3) : Fin 9 :=
  match v with
  | .time => ⟨p.val, by omega⟩
  | .date => ⟨3 + p.val, by omega⟩
  | .userData => ⟨6 + p.val, by omega⟩

/-- `target(p) = toBCD(src(VIEW, p))` (00_scope.md R14), read from the latches as they are now
(41_animation.md R144). -/
def State.target (s : State) (p : Fin 3) : Byte := toBCD s.src[fieldIndex s.view p]

/-- The three targets (40_display_buffer.md R111). -/
def State.targets (s : State) : Vector Byte 3 := #v[s.target 0, s.target 1, s.target 2]

/-- The phase-indexed nibble of the DisplayBuffer: nibble `q mod 2` of pair `q div 2` (42_multiplexing.md R175). -/
def State.phaseDigit (s : State) : Nibble :=
  nib s.pair[s.phase.val / 2] ⟨s.phase.val % 2, Nat.mod_lt _ (by decide)⟩

end Sys2Proof.Machine
end

