-- ==== Sys2Proof/Machine/Flags.lean ====
section
/-!
DEFINITION. The status flags of 10_state.md R39 as functions of what sets and clears them: the pending and overrun
flags, the first-wins fault record, and the flags that decide a roll.
-/

namespace Sys2Proof.Machine

/-- The bit of a channel in PEND and OVR: bit index = channel code (30_encoding.md R89). -/
def channelBit (ch : Channel) : BitVec 4 := 1#4 <<< ch.code.toNat

/-- `S[ch] = 1`, for PEND, OVR or a snapshot of PEND (10_state.md R33, R34). -/
def channelSet (flags : BitVec 4) (ch : Channel) : Bool := flags.getLsbD ch.code.toNat

/-- PEND after channel `ch` fires (42_multiplexing.md R170). -/
def pendAfterFire (pend : BitVec 4) (ch : Channel) : BitVec 4 := pend ||| channelBit ch

/-- OVR after channel `ch` fires: a firing that finds its flag already pending is an overrun
(42_multiplexing.md R170, R178). -/
def ovrAfterFire (pend ovr : BitVec 4) (ch : Channel) : BitVec 4 :=
  if channelSet pend ch then ovr ||| channelBit ch else ovr

/-- CAUSE after a fault: the first since the last clear is kept (60_exceptions.md R222). -/
def causeAfterFault (fault : Bool) (old new : Cause) : Cause := if fault then old else new

/-- ROLL_ARM, the one-time roll latch, is NOT ROLLING (10_state.md R35). -/
def State.rollArm (s : State) : Bool := !s.rolling

/-- The floor of the roll, `over > 9` (41_animation.md R141). -/
def pastFloor (elapsed : BitVec 5) : Bool := Config.rollFloor < elapsed.toNat

/-- `OVER <- min(OVER + 1, 31)` (41_animation.md R140). -/
def overAfterStep (elapsed : BitVec 5) : BitVec 5 := BitVec.ofNat 5 (min (elapsed.toNat + 1) Config.overMax)

/-- The completion test of a roll on the values a step has just written (41_animation.md R140, R142). -/
def rollComplete (elapsed : BitVec 5) (pair targets : Vector Byte 3) : Bool := pastFloor elapsed && pair == targets

end Sys2Proof.Machine
end

