-- ==== Sys2Proof/Machine/Ops.lean ====
section
/-!
DEFINITION. The shared operations over the registers and ports: accepting an input, emitting a strobe, returning read
data, writing a pair or a latch, recording a fault and clearing the record, the register read map, and reset.
-/

namespace Sys2Proof.Machine

/-! ### Ports -/

/-- `emit S` (00_scope.md R10): strobes stand in emission order (10_state.md R40). -/
def State.emit (s : State) (x : Strobe) : State := { s with strobes := s.strobes ++ [x] }

/-- Read data goes out on the read-data port in this step (10_state.md R41, 43_control.md R201). -/
def State.returnData (s : State) (w : Word) : State := { s with rdata := some w }

/-- A step begins with nothing emitted and no read data: a strobe lasts its step only (10_state.md R40) and read
data is not stored (R41). -/
def State.openPorts (s : State) : State := { s with strobes := [], rdata := none }

/-! ### Registers -/

/-- `PAIR[p] <- d`: both nibbles in one step (10_state.md R23). -/
def State.setPair (s : State) (p : Fin 3) (d : Byte) : State := { s with pair := s.pair.set p d }

/-- `SRC[f] <- n` (40_display_buffer.md R114). -/
def State.setSrc (s : State) (f : Fin 9) (n : Byte) : State := { s with src := s.src.set f n }

/-! ### Faults -/

/-- `raise Fault(c)` (60_exceptions.md R222): FAULT is set, the first cause since the last clear is kept, and nothing
else changes. This is all that taking an exception is here: nothing is saved and no handler is entered (R220,
R224). -/
def State.raise (s : State) (c : Cause) : State :=
  { s with fault := true, cause := causeAfterFault s.fault s.cause c }

/-- Clearing the record, the only way back from a fault but reset (43_control.md R202, 60_exceptions.md R224). -/
def State.clearStatus (s : State) : State := { s with fault := false, cause := .none, ovr := 0 }

/-! ### The register read map -/

/-- `RegRead(r)`: the register images of 20_memory.md R66, reserved bits 0. -/
def State.regRead (s : State) : ReadIndex → Word
  | .pair0 => s.pair[0].zeroExtend 16
  | .pair1 => s.pair[1].zeroExtend 16
  | .pair2 => s.pair[2].zeroExtend 16
  | .drive => s.cathode ++ s.anode
  | .muxstat => s.ovr ++ s.pend ++ 0#3 ++ s.bStage.code ++ BitVec.ofNat 3 s.phase.val
  | .rollstat =>
    0#2 ++ BitVec.ofBool s.setting ++ BitVec.ofBool s.blink ++ s.view.code ++ s.lastView.code ++ 0#1 ++
      BitVec.ofBool s.rollArm ++ BitVec.ofBool s.rolling ++ s.overCount
  | .faultstat => BitVec.ofBool s.fault ++ 0#11 ++ s.cause.code
  | .tSec => s.src[0].zeroExtend 16
  | .tMin => s.src[1].zeroExtend 16
  | .tHour => s.src[2].zeroExtend 16
  | .dDay => s.src[3].zeroExtend 16
  | .dMonth => s.src[4].zeroExtend 16
  | .dYsuf => s.src[5].zeroExtend 16
  | .uSec => s.src[6].zeroExtend 16
  | .uMin => s.src[7].zeroExtend 16
  | .uHour => s.src[8].zeroExtend 16

/-! ### Inputs -/

/-- The input this step consumes: the first the environment has presented; where none is listed, the next draw of
the free schedule (00_scope.md R16, 60_exceptions.md R229). Log 1, log 2. -/
def State.nextInput (s : State) : Input :=
  match s.presented with
  | i :: _ => i
  | [] => Config.freeInput s.draws

/-- The state in which the consumed input is performed: the input is gone and the ports are open. -/
def State.consumed (s : State) : State :=
  match s.presented with
  | _ :: rest => { s.openPorts with presented := rest }
  | [] => { s.openPorts with draws := s.draws + 1 }

/-- RESET (70_reset_and_hazards.md R250): every register takes its reset value, no strobe, no read data. What the
environment will present is not DMC's state and stays. -/
def State.applyReset (s : State) : State :=
  { State.reset with presented := s.presented, draws := s.draws }

end Sys2Proof.Machine
end

