-- ==== Sys2Proof/Machine/Control.lean ====
section
/-!
DEFINITION. The control and access commands of 43_control.md: SETCTL, RD, CLRERR, NOP.
-/

namespace Sys2Proof.Machine

/-- NOP (43_control.md R203). -/
def execNop (s : State) : Host.Outcome State Fault Refusal := .next s

/-- SETCTL s, b (43_control.md R200): no line changes until the next channel A or B handler. -/
def execSetctl (setting blink : Bool) (s : State) : Host.Outcome State Fault Refusal :=
  .next { s with setting := setting, blink := blink }

/-- RD r (43_control.md R201): changes no register. -/
def execRd (r : ReadIndex) (s : State) : Host.Outcome State Fault Refusal := .next (s.returnData (s.regRead r))

/-- CLRERR (43_control.md R202). -/
def execClrerr (s : State) : Host.Outcome State Fault Refusal := .next s.clearStatus

end Sys2Proof.Machine
end

