-- ==== Sys2Proof/Machine/DisplayBuffer.lean ====
section
/-!
DEFINITION. The display buffer commands of 40_display_buffer.md: TICK, WPAIR, SETVIEW, LDSRC. The check of reserved
word bits that opens each rule is the decoder's (30_encoding.md R85, R88).
-/

namespace Sys2Proof.Machine

/-- The direct copy of the selected view's three fields (40_display_buffer.md R111). -/
def State.directCopy (s : State) : State := { s with pair := s.targets }

/-- TICK's answer to a view change: LAST_VIEW follows, and a roll starts if the one-time roll latch is set
(40_display_buffer.md R110, 41_animation.md R143). -/
def State.noteViewChange (s : State) : State :=
  if s.rollArm then { s with lastView := s.view, rolling := true, overCount := 0 } else { s with lastView := s.view }

/-- TICK (40_display_buffer.md R110). -/
def execTick (s : State) : Host.Outcome State Fault Refusal :=
  .next <|
    if s.setting then s
    else if s.view ≠ s.lastView then s.noteViewChange
    else if s.rolling then s
    else s.directCopy

/-- WPAIR p, d (40_display_buffer.md R112): the index check before the datum check (60_exceptions.md R223). -/
def execWpair (p : BitVec 2) (d : Byte) (s : State) : Host.Outcome State Fault Refusal :=
  .next <|
    match pairOfIndex p with
    | none => s.raise .badPair
    | some q => if isBCD d then s.setPair q d else s.raise .badBcd

/-- SETVIEW v (40_display_buffer.md R113). -/
def execSetview (v : BitVec 2) (s : State) : Host.Outcome State Fault Refusal :=
  .next <|
    match viewOfCode v with
    | none => s.raise .badView
    | some w => { s with view := w }

/-- LDSRC f, n (40_display_buffer.md R114): the index check before the datum check (60_exceptions.md R223). -/
def execLdsrc (f : BitVec 4) (n : Byte) (s : State) : Host.Outcome State Fault Refusal :=
  .next <|
    match fieldOfCode f with
    | none => s.raise .badField
    | some g => if n.toNat ≤ Config.fieldMax then s.setSrc g n else s.raise .range

end Sys2Proof.Machine
end

