-- ==== Sys2Proof/Machine/Animation.lean ====
section
/-!
DEFINITION. The digit-rolling animation engine of 41_animation.md: the channel D handler. It has no opcode; DISPATCH
runs it.
-/

namespace Sys2Proof.Machine

/-- The odometer hold rule (41_animation.md R141): a nibble is held once OVER > 9, OVER read before this step's
increment, and it equals its target nibble; otherwise it is incremented. -/
def rollNibble (elapsed : BitVec 5) (n t : Nibble) : Nibble :=
  if pastFloor elapsed && n == t then n else inc10 n

/-- One roll step of one pair: each nibble on its own (41_animation.md R140, R141). -/
def rollPair (elapsed : BitVec 5) (b t : Byte) : Byte :=
  mk (rollNibble elapsed (hi b) (hi t)) (rollNibble elapsed (lo b) (lo t))

/-- The three pairs after one roll step toward the live targets (41_animation.md R140, R144). -/
def State.rolledPairs (s : State) : Vector Byte 3 :=
  #v[rollPair s.overCount s.pair[0] (s.target 0), rollPair s.overCount s.pair[1] (s.target 1),
    rollPair s.overCount s.pair[2] (s.target 2)]

/-- The writes of a roll step before the completion test (41_animation.md R140). -/
def State.advanceRoll (s : State) : State :=
  { s with pair := s.rolledPairs, overCount := overAfterStep s.overCount }

/-- Completion of a roll: the latch is set again, OVER returns to 0, LAST_VIEW names the view the roll ended on, and
ROLL_DONE is emitted (41_animation.md R142). -/
def State.completeRoll (s : State) : State :=
  State.emit { s with rolling := false, overCount := 0, lastView := s.view } .rollDone

/-- The channel D handler, one roll step (41_animation.md R140). Set mode pauses it (R148). -/
def handleD (s : State) : State :=
  if s.setting || !s.rolling then s
  else
    let t := s.advanceRoll
    if rollComplete t.overCount t.pair s.targets then t.completeRoll else t

end Sys2Proof.Machine
end

