-- ==== Sys2Proof/Machine/Multiplexing.lean ====
section
/-!
DEFINITION. The multiplexing scheduler of 42_multiplexing.md: the commands FIRE and DISPATCH and the handlers of
channels A, B and C.
-/

namespace Sys2Proof.Machine

/-- `(PHASE + 1) mod 6` (42_multiplexing.md R172). -/
def nextPhase (q : Fin 6) : Fin 6 := ⟨(q.val + 1) % 6, Nat.mod_lt _ (by decide)⟩

/-- Both groups of lines forced off and the next phase selected (42_multiplexing.md R172). -/
def State.blankAndAdvance (s : State) : State :=
  { s with cathode := 0, anode := 0, phase := nextPhase s.phase }

/-- The channel A handler (42_multiplexing.md R172). Under BLINK channel B is not armed. -/
def handleA (s : State) : State :=
  if s.blink then { s.blankAndAdvance with bStage := .idle }
  else State.emit { s.blankAndAdvance with bStage := .cath } .armB

/-- The channel B handler (42_multiplexing.md R173): suppressed under BLINK; else the first occurrence sets the
cathode pattern and re-arms, the second lights the anode, and a firing with nothing due is ignored (R180). -/
def handleB (s : State) : State :=
  if s.blink then { s with bStage := .idle }
  else
    match s.bStage with
    | .idle => s
    | .cath => State.emit { s with cathode := cathodePattern s.phaseDigit, bStage := .anode } .armB
    | .anode => { s with anode := anodeLine s.phase, bStage := .idle }

/-- The channel C handler passes the firing on (42_multiplexing.md R174). -/
def handleC (s : State) : State := s.emit .cTick

/-- The handler of a channel (42_multiplexing.md R171). -/
def handler : Channel → State → State
  | .a => handleA
  | .b => handleB
  | .c => handleC
  | .d => handleD

/-- A channel of the snapshot is serviced if its flag was pending (42_multiplexing.md R171). -/
def service (snapshot : BitVec 4) (ch : Channel) (s : State) : State :=
  if channelSet snapshot ch then handler ch s else s

/-- Clear exactly the pending flags that were read (42_multiplexing.md R171). -/
def State.clearPending (s : State) (snapshot : BitVec 4) : State := { s with pend := s.pend &&& ~~~snapshot }

/-- The handlers of the snapshot in the order A, B, C, D, each in the state the one before it left
(42_multiplexing.md R171). -/
def serviceAll (snapshot : BitVec 4) (s : State) : State :=
  service snapshot .d (service snapshot .c (service snapshot .b (service snapshot .a s)))

/-- FIRE ch (42_multiplexing.md R170). -/
def execFire (ch : Channel) (s : State) : Host.Outcome State Fault Refusal :=
  .next { s with ovr := ovrAfterFire s.pend s.ovr ch, pend := pendAfterFire s.pend ch }

/-- DISPATCH (42_multiplexing.md R171): the snapshot, its clearing and its handlers are one step. -/
def execDispatch (s : State) : Host.Outcome State Fault Refusal :=
  .next (serviceAll s.pend (s.clearPending s.pend))

end Sys2Proof.Machine
end

