-- ==== Sys2Proof/Machine/Dispatch.lean ====
section
/-!
DEFINITION. One arm per command: the meaning that performs it.
-/

namespace Sys2Proof.Machine

def exec (i : Instr) (s : State) : Host.Outcome State Fault Refusal :=
  match i with
  | .nop => Sys2Proof.Machine.execNop s
  | .fire ch => Sys2Proof.Machine.execFire ch s
  | .dispatch => Sys2Proof.Machine.execDispatch s
  | .tick => Sys2Proof.Machine.execTick s
  | .wpair p d => Sys2Proof.Machine.execWpair p d s
  | .setview v => Sys2Proof.Machine.execSetview v s
  | .setctl setting blink => Sys2Proof.Machine.execSetctl setting blink s
  | .ldsrc f n => Sys2Proof.Machine.execLdsrc f n s
  | .rd r => Sys2Proof.Machine.execRd r s
  | .clrerr => Sys2Proof.Machine.execClrerr s

end Sys2Proof.Machine
end

