-- ==== Sys2Proof/Machine/Perform.lean ====
section
/-!
DEFINITION. Performing one input: a command word through the decoder, or RESET.
-/

namespace Sys2Proof.Machine

/-- A command word performed: its command, or ILLEGAL_CMD where the word is none (30_encoding.md R84, R85, R88). -/
def performWord (w : Word) (s : State) : Host.Outcome State Fault Refusal :=
  match decode w with
  | .ok i => exec i s
  | .error _ => .next (s.raise .illegalCmd)

/-- An input performed: a command word (30_encoding.md R80) or RESET (70_reset_and_hazards.md R250). -/
def performInput (i : Input) (s : State) : Host.Outcome State Fault Refusal :=
  match i with
  | .command w => performWord w s
  | .reset => .next s.applyReset

/-- `s` with the command word made of the low `nbits` bits of `w` presented first. -/
def State.presentWord (s : State) (nbits w : Nat) : State :=
  { s with presented := .command (BitVec.ofNat 16 (w % 2 ^ nbits)) :: s.presented }

end Sys2Proof.Machine
end

