-- ==== Sys2Proof/Machine/Step.lean ====
section
/-!
DEFINITION. One step: the input the environment presents is consumed and performed (00_scope.md R16).
-/

namespace Sys2Proof.Machine

/-- One step of DMC (00_scope.md R6, R16). -/
def step (s : State) : Host.Outcome State Fault Refusal := performInput s.nextInput s.consumed

/-- The state whose next step performs the command word made of the low `nbits` bits of `w`: the environment presents
it first, and nothing else changes (log 3). -/
def State.withFetchWord (s : State) (nbits w : Nat) : State := s.presentWord nbits w

end Sys2Proof.Machine
end

