-- ==== Sys2Proof/Machine/Assembly.lean ====
section
/-!
DEFINITION. The assembler's view of the commands: the pseudo-instructions of 30_encoding.md R91 as the command
sequences they expand to; the text of a command in the syntax of R90; and the assembler of that syntax. Log 12.
-/

namespace Sys2Proof.Machine

/-- The pseudo-instructions of 30_encoding.md R91. Operands keep the width of the field they fill. -/
inductive Pseudo where
  /-- `STEP c`: one firing of channel c, handled. -/
  | step (ch : Channel)
  /-- `ROLLSTEP`: one roll step. -/
  | rollstep
  /-- `SCAN`: one full phase of the multiplexer. -/
  | scan
  /-- `LDTIME h, m, s`. -/
  | ldtime (h m s : Byte)
  /-- `LDDATE d, mo, ys`. -/
  | lddate (d mo ys : Byte)
  /-- `LDUSER h, m, s`. -/
  | lduser (h m s : Byte)
  /-- `SHOW v`. -/
  | showView (v : BitVec 2)
  deriving DecidableEq, Repr

/-- The expansion of a pseudo-instruction: a sequence of commands, not an atomic one (30_encoding.md R91). -/
def expandPseudo : Pseudo → List Instr
  | .step ch => [.fire ch, .dispatch]
  | .rollstep => [.fire .d, .dispatch]
  | .scan => [.fire .a, .dispatch, .fire .b, .dispatch, .fire .b, .dispatch]
  | .ldtime h m s => [.ldsrc 2 h, .ldsrc 1 m, .ldsrc 0 s]
  | .lddate d mo ys => [.ldsrc 3 d, .ldsrc 4 mo, .ldsrc 5 ys]
  | .lduser h m s => [.ldsrc 8 h, .ldsrc 7 m, .ldsrc 6 s]
  | .showView v => [.setview v, .tick]

/-- What the environment presents to have a list of commands performed: their words, in order. -/
def presentation (is : List Instr) : List Input := is.map fun i => .command (encode i)

/-- A hex digit. -/
def hexDigit (n : Nibble) : String :=
  match n.toNat with
  | 10 => "A"
  | 11 => "B"
  | 12 => "C"
  | 13 => "D"
  | 14 => "E"
  | 15 => "F"
  | k => toString k

/-- A byte in hex, as R90 writes WPAIR's operand so that its BCD digits read directly. -/
def hexByte (b : Byte) : String := "0x" ++ hexDigit (b.extractLsb' 4 4) ++ hexDigit (b.extractLsb' 0 4)

/-- The name of a channel (30_encoding.md R90). -/
def channelName : Channel → String
  | .a => "A"
  | .b => "B"
  | .c => "C"
  | .d => "D"

/-- The name of a view code; code 3 has none and is written as a number (30_encoding.md R90). -/
def viewName (v : BitVec 2) : String :=
  match v.toNat with
  | 0 => "TIME"
  | 1 => "DATE"
  | 2 => "USER"
  | k => toString k

/-- The name of a field code; codes above 8 have none and are written as numbers (30_encoding.md R90). -/
def fieldName (f : BitVec 4) : String :=
  match f.toNat with
  | 0 => "T_SEC"
  | 1 => "T_MIN"
  | 2 => "T_HOUR"
  | 3 => "D_DAY"
  | 4 => "D_MONTH"
  | 5 => "D_YSUF"
  | 6 => "U_SEC"
  | 7 => "U_MIN"
  | 8 => "U_HOUR"
  | k => toString k

/-- The name of a read index (20_memory.md R66). -/
def readName : ReadIndex → String
  | .pair0 => "PAIR0"
  | .pair1 => "PAIR1"
  | .pair2 => "PAIR2"
  | .drive => "DRIVE"
  | .muxstat => "MUXSTAT"
  | .rollstat => "ROLLSTAT"
  | .faultstat => "FAULTSTAT"
  | .tSec => "T_SEC"
  | .tMin => "T_MIN"
  | .tHour => "T_HOUR"
  | .dDay => "D_DAY"
  | .dMonth => "D_MONTH"
  | .dYsuf => "D_YSUF"
  | .uSec => "U_SEC"
  | .uMin => "U_MIN"
  | .uHour => "U_HOUR"

/-- A single bit operand. -/
def bitText (b : Bool) : String := if b then "1" else "0"

/-- The assembler text of a command (30_encoding.md R90). -/
def asmText : Instr → String
  | .nop => "NOP"
  | .fire ch => "FIRE " ++ channelName ch
  | .dispatch => "DISPATCH"
  | .tick => "TICK"
  | .wpair p d => "WPAIR " ++ toString p.toNat ++ ", " ++ hexByte d
  | .setview v => "SETVIEW " ++ viewName v
  | .setctl s b => "SETCTL " ++ bitText s ++ ", " ++ bitText b
  | .ldsrc f n => "LDSRC " ++ fieldName f ++ ", " ++ toString n.toNat
  | .rd r => "RD " ++ readName r
  | .clrerr => "CLRERR"

/-! ### The assembler -/

/-- The parts of a text between separators. -/
def splitAtChar (separator : Char) : List Char → List (List Char)
  | [] => [[]]
  | c :: cs =>
    match splitAtChar separator cs with
    | [] => [[c]]
    | part :: parts => if c = separator then [] :: part :: parts else (c :: part) :: parts

/-- A text without the blanks around it. -/
def trimBlanks (cs : List Char) : List Char :=
  ((cs.dropWhile (· == ' ')).reverse.dropWhile (· == ' ')).reverse

/-- The value of a digit in lower case. -/
def digitValue (c : Char) : Option Nat :=
  if 48 ≤ c.toNat ∧ c.toNat ≤ 57 then some (c.toNat - 48)
  else if 97 ≤ c.toNat ∧ c.toNat ≤ 102 then some (c.toNat - 87)
  else none

/-- The digits of a number after those already read. -/
def numberFrom (base acc : Nat) : List Char → Option Nat
  | [] => some acc
  | c :: cs =>
    match digitValue c with
    | some d => if d < base then numberFrom base (acc * base + d) cs else none
    | none => none

/-- "Numbers are decimal, or hex with `0x`" (30_encoding.md R90). -/
def readNumber : List Char → Option Nat
  | [] => none
  | ['0', 'x'] => none
  | '0' :: 'x' :: ds => numberFrom 16 0 ds
  | ds => numberFrom 10 0 ds

/-- An operand: one of its field's names in the order of their codes, or a number that fits the field
(30_encoding.md R90). -/
def readOperand (width : Nat) (names : List String) (cs : List Char) : Option (BitVec width) :=
  match names.findIdx? (fun n => n.toList == cs) with
  | some k => some (BitVec.ofNat width k)
  | none =>
    match readNumber cs with
    | some n => if n < 2 ^ width then some (BitVec.ofNat width n) else none
    | none => none

/-- A channel, by its name only (30_encoding.md R90). -/
def readChannel (cs : List Char) : Option Channel :=
  match cs with
  | ['a'] => some .a
  | ['b'] => some .b
  | ['c'] => some .c
  | ['d'] => some .d
  | _ => none

/-- The names of the view codes (30_encoding.md R90). -/
def viewNames : List String := ["time", "date", "user"]

/-- The names of the field codes (30_encoding.md R90). -/
def fieldNames : List String :=
  ["t_sec", "t_min", "t_hour", "d_day", "d_month", "d_ysuf", "u_sec", "u_min", "u_hour"]

/-- The names of the read indexes (20_memory.md R66). -/
def readNames : List String :=
  ["pair0", "pair1", "pair2", "drive", "muxstat", "rollstat", "faultstat"] ++ fieldNames

/-- The commands of a mnemonic with its operands, all in lower case: one command, or the expansion of a
pseudo-instruction (30_encoding.md R90, R91). None: a text the assembler rejects. -/
def assembleParts (mnemonic : String) (operands : List (List Char)) : Option (List Instr) :=
  match operands with
  | [] =>
    if mnemonic = "nop" then some [.nop]
    else if mnemonic = "dispatch" then some [.dispatch]
    else if mnemonic = "tick" then some [.tick]
    else if mnemonic = "clrerr" then some [.clrerr]
    else if mnemonic = "rollstep" then some (expandPseudo .rollstep)
    else if mnemonic = "scan" then some (expandPseudo .scan)
    else none
  | [x] =>
    if mnemonic = "fire" then (readChannel x).map fun ch => [.fire ch]
    else if mnemonic = "setview" then (readOperand 2 viewNames x).map fun v => [.setview v]
    else if mnemonic = "rd" then (readOperand 4 readNames x).map fun r => [.rd (readIndexOfCode r)]
    else if mnemonic = "step" then (readChannel x).map fun ch => expandPseudo (.step ch)
    else if mnemonic = "show" then (readOperand 2 viewNames x).map fun v => expandPseudo (.showView v)
    else none
  | [x, y] =>
    if mnemonic = "wpair" then
      match readOperand 2 [] x, readOperand 8 [] y with
      | some p, some d => some [.wpair p d]
      | _, _ => none
    else if mnemonic = "setctl" then
      match readOperand 1 [] x, readOperand 1 [] y with
      | some s, some b => some [.setctl (s == 1) (b == 1)]
      | _, _ => none
    else if mnemonic = "ldsrc" then
      match readOperand 4 fieldNames x, readOperand 8 [] y with
      | some f, some n => some [.ldsrc f n]
      | _, _ => none
    else none
  | [x, y, z] =>
    match readOperand 8 [] x, readOperand 8 [] y, readOperand 8 [] z with
    | some a, some b, some c =>
      if mnemonic = "ldtime" then some (expandPseudo (.ldtime a b c))
      else if mnemonic = "lddate" then some (expandPseudo (.lddate a b c))
      else if mnemonic = "lduser" then some (expandPseudo (.lduser a b c))
      else none
    | _, _, _ => none
  | _ => none

/-- One line of assembler text: the mnemonic first, then operands with commas between them, names in either case
(30_encoding.md R90). -/
def assemble (line : String) : Option (List Instr) :=
  let cs := trimBlanks (line.toList.map Char.toLower)
  let operands := trimBlanks (cs.dropWhile (· != ' '))
  assembleParts (String.ofList (cs.takeWhile (· != ' ')))
    (if operands.isEmpty then [] else (splitAtChar ',' operands).map trimBlanks)

end Sys2Proof.Machine
end

