-- ==== Sys2Proof/Safety.lean ====
section
/-!
DEFINITION. The terms claims about DMC are stated in: the invariants of 10_state.md R43, what two states must share to
have equal registers, the observation of a run (70_reset_and_hazards.md R259), the premises "no command was refused"
and "no firing was merged", and the environment's duties of R256 that speak of DMC's state.
-/

namespace Sys2Proof.Machine

/-! ### Invariants -/

/-- A one-hot pattern or no line at all. -/
def atMostOneLine {n : Nat} (lines : BitVec n) : Prop := lines = 0 ∨ ∃ k : Fin n, lines = 1#n <<< k.val

/-- The invariants (a) to (k) of 10_state.md R43. -/
structure State.Inv (s : State) : Prop where
  /-- (a) Every nibble of every pair is a digit (R22). -/
  bcd : ∀ p : Fin 3, (lo s.pair[p]).toNat ≤ 9 ∧ (hi s.pair[p]).toNat ≤ 9
  /-- (b) -/
  fields : ∀ f : Fin 9, s.src[f].toNat ≤ 99
  /-- (c) -/
  views : s.view.code.toNat ≤ 2 ∧ s.lastView.code.toNat ≤ 2
  /-- (d) -/
  phaseLegal : s.phase.val ≤ 5
  /-- (e) -/
  stageLegal : s.bStage.code.toNat ≤ 2
  /-- (f) -/
  oneHot : atMostOneLine s.cathode ∧ atMostOneLine s.anode
  /-- (g) -/
  overIdle : s.rolling = false → s.overCount = 0
  /-- (h) -/
  causeIdle : s.fault = false → s.cause.code = 0
  /-- (i) -/
  causeLegal : s.cause.code.toNat ≤ 6
  /-- (j) -/
  anodeDue : s.bStage = .anode → s.cathode ≠ 0 ∧ s.anode = 0
  /-- (k) -/
  cathDue : s.bStage = .cath → s.cathode = 0 ∧ s.anode = 0

/-! ### Registers and runs -/

/-- The two states agree on every register of 10_state.md R44. They may differ in the output ports and in what the
environment will present. -/
def State.SameRegisters (s t : State) : Prop :=
  t = { s with strobes := t.strobes, rdata := t.rdata, presented := t.presented, draws := t.draws }

/-- The state after reset, with the inputs the environment will present. -/
def State.resetPresenting (is : List Input) : State := { State.reset with presented := is }

/-- What one step puts out besides the level lines (60_exceptions.md R226). -/
structure Output where
  strobes : List Strobe
  rdata : Option Word
  deriving DecidableEq, Repr

/-- The outputs of the step that made this state. -/
def State.output (s : State) : Output := ⟨s.strobes, s.rdata⟩

/-- The outputs of `k` steps in order. Together with the final state of `Host.Core.run` they are the observation of a
run (70_reset_and_hazards.md R259). -/
def outputsOfRun : Nat → State → List Output
  | 0, _ => []
  | k + 1, s =>
    match step s with
    | .next t => t.output :: outputsOfRun k t
    | .fault _ => []
    | .refused _ => []

/-- The run of a list of commands: they are presented in order and as many steps are made. -/
def afterCommands (is : List Instr) (s : State) : Host.Outcome State Fault Refusal :=
  Host.Core.run Sys2Proof.core is.length { s with presented := presentation is }

/-- The commands of `k` roll steps in a row, each a ROLLSTEP (30_encoding.md R91). -/
def rollSteps (k : Nat) : List Instr := (List.replicate k Pseudo.rollstep).flatMap expandPseudo

/-- The commands of `k` full phases in a row, each a SCAN (30_encoding.md R91). -/
def scans (k : Nat) : List Instr := (List.replicate k Pseudo.scan).flatMap expandPseudo

/-! ### Values -/

/-- The digit of a pair as a number: k = 0 the low nibble, k = 1 the high one (00_scope.md R11). -/
def digitOf (b : Byte) (k : Fin 2) : Nat := b.toNat / 16 ^ k.val % 16

/-- The digit that display position q shows: nibble `q mod 2` of pair `q div 2` (42_multiplexing.md R175). -/
def digitAt (pair : Vector Byte 3) (q : Fin 6) : Nat :=
  digitOf pair[q.val / 2] ⟨q.val % 2, Nat.mod_lt _ (by decide)⟩

/-- The binary value the selected view shows in pair p, `SRC[3*VIEW + p]` (00_scope.md R14). -/
def shownValue (s : State) (p : Fin 3) : Nat := (s.src.toList.getD (3 * s.view.code.toNat + p.val) 0).toNat

/-- The decimal digit the selected view asks for: k = 0 units, k = 1 tens (00_scope.md R12, R14). -/
def targetDigit (s : State) (p : Fin 3) (k : Fin 2) : Nat := shownValue s p / 10 ^ k.val % 10

/-- How many increments bring a nibble to its target digit, `(t - start) mod 10` (41_animation.md R145). -/
def digitDistance (s : State) (p : Fin 3) (k : Fin 2) : Nat :=
  (targetDigit s p k + 10 - digitOf s.pair[p] k) % 10

/-- The largest distance over the six nibbles (41_animation.md R145). -/
def largestDistance (s : State) : Nat :=
  max (max (max (digitDistance s 0 0) (digitDistance s 0 1)) (max (digitDistance s 1 0) (digitDistance s 1 1)))
    (max (digitDistance s 2 0) (digitDistance s 2 1))

/-- The state a refused command leaves: the state before it with the fault recorded, the first cause kept
(60_exceptions.md R222). -/
def State.faulted (s : State) (c : Cause) : State :=
  { s with fault := true, cause := if s.fault then s.cause else c }

/-- A word that raises ILLEGAL_CMD and does nothing else, whatever the state (30_encoding.md R84, R85). -/
def IllegalWordOnly (w : Word) : Prop := ∀ s : State, performWord w s = .next (s.faulted .illegalCmd)

/-- The rows of 30_encoding.md R83, each with its match and its mask. -/
def opcodeRows : List (Word × Word) :=
  [(0x0000, 0xFFFF), (0x1000, 0xFFFC), (0x2000, 0xFFFF), (0x3000, 0xFFFF), (0x4000, 0xFC00),
    (0x5000, 0xFFFC), (0x6000, 0xFFFC), (0x7000, 0xF000), (0x8000, 0xFFF0), (0x9000, 0xFFFF)]

/-! ### Premises of claims -/

/-- "No command was refused", at the end of a run (60_exceptions.md R224). -/
def State.noneRefused (s : State) : Prop := s.fault = false

/-- "No firing was merged", at the end of a run (42_multiplexing.md R178). -/
def State.noneMerged (s : State) : Prop := s.ovr = 0

/-! ### The environment's duties -/

/-- The command an input carries, if it carries one. -/
def commandOf : Input → Option Instr
  | .command w => (decode w).toOption
  | .reset => none

/-- E1: FIRE B only in answer to an ARM_B, so only while an occurrence is due and not already fired
(70_reset_and_hazards.md R256). The blanking time is not in the model. -/
def keepsE1 (s : State) (i : Input) : Bool :=
  match commandOf i with
  | some (.fire .b) => s.bStage != .idle && !channelSet s.pend .b
  | _ => true

/-- E2: FIRE A only after both occurrences of B of the phase are handled (70_reset_and_hazards.md R256). -/
def keepsE2 (s : State) (i : Input) : Bool :=
  match commandOf i with
  | some (.fire .a) => s.bStage == .idle && !channelSet s.pend .b
  | _ => true

/-- E3: a channel fires again only after a DISPATCH (70_reset_and_hazards.md R256). -/
def keepsE3 (s : State) (i : Input) : Bool :=
  match commandOf i with
  | some (.fire ch) => !channelSet s.pend ch
  | _ => true

/-- E7: direct buffer writes only under SETTING, and BLINK is cleared with SETTING (70_reset_and_hazards.md R256). -/
def keepsE7 (s : State) (i : Input) : Bool :=
  match commandOf i with
  | some (.wpair _ _) => s.setting
  | some (.setctl setting blink) => setting || !blink
  | _ => true

/-- Duties E1, E2, E3 and E7, under which claims about the display are stated (70_reset_and_hazards.md R256). -/
def keepsDuties (s : State) (i : Input) : Bool := keepsE1 s i && keepsE2 s i && keepsE3 s i && keepsE7 s i

/-- The inputs of the next `k` steps keep the duties, each in the state it meets. -/
def keepsDutiesFor : Nat → State → Prop
  | 0, _ => True
  | k + 1, s => keepsDuties s s.nextInput = true ∧ ∀ t, step s = .next t → keepsDutiesFor k t

end Sys2Proof.Machine
end

