-- ==== Sys2Proof/Certificates/Slice0/Obligations.lean ====
section
/-!
DEFINITION. The statements about DMC-1 for the provers. Each docstring names the rules of spec/ a statement rests on;
where the spec marks a rule as derived or as general knowledge, or the model chose, the docstring says so.
-/

open Sys2Proof Sys2Proof.Machine

/-! ### Words -/

/-- Words written out bit by bit from the formats of 30_encoding.md R81, one per row of the opcode table. -/
def Obligations.SampleWordsDecode : Prop :=
  decode 0b0000_000000000000#16 = .ok .nop ∧
  decode 0b0001_0000000000_11#16 = .ok (.fire .d) ∧
  decode 0b0010_000000000000#16 = .ok .dispatch ∧
  decode 0b0011_000000000000#16 = .ok .tick ∧
  decode 0b0100_00_01_0101_1001#16 = .ok (.wpair 1 0x59) ∧
  decode 0b0101_0000000000_10#16 = .ok (.setview 2) ∧
  decode 0b0110_0000000000_1_0#16 = .ok (.setctl true false) ∧
  decode 0b0111_0101_01100011#16 = .ok (.ldsrc 5 99) ∧
  decode 0b1000_00000000_0101#16 = .ok (.rd .rollstat) ∧
  decode 0b1001_000000000000#16 = .ok .clrerr ∧
  decode 0b1010_000000000000#16 = .error .reservedOpcode ∧
  decode 0b0101_0000000001_11#16 = .error .reservedBits

/-- 30_encoding.md R83, R88: a word selects the row whose match it equals under the row's mask and carries the fields
of the row's format; a word that selects no row is no command. -/
def Obligations.DecodeFollowsOpcodeMap : Prop :=
  ∀ w : Word,
    (w &&& 0xFFFF = 0x0000 → decode w = .ok .nop) ∧
    (w &&& 0xFFFC = 0x1000 → ∃ ch, decode w = .ok (.fire ch) ∧ ch.code = w.extractLsb' 0 2) ∧
    (w &&& 0xFFFF = 0x2000 → decode w = .ok .dispatch) ∧
    (w &&& 0xFFFF = 0x3000 → decode w = .ok .tick) ∧
    (w &&& 0xFC00 = 0x4000 → decode w = .ok (.wpair (w.extractLsb' 8 2) (w.extractLsb' 0 8))) ∧
    (w &&& 0xFFFC = 0x5000 → decode w = .ok (.setview (w.extractLsb' 0 2))) ∧
    (w &&& 0xFFFC = 0x6000 → decode w = .ok (.setctl (w.getLsbD 1) (w.getLsbD 0))) ∧
    (w &&& 0xF000 = 0x7000 → decode w = .ok (.ldsrc (w.extractLsb' 8 4) (w.extractLsb' 0 8))) ∧
    (w &&& 0xFFF0 = 0x8000 → ∃ r, decode w = .ok (.rd r) ∧ r.code = w.extractLsb' 0 4) ∧
    (w &&& 0xFFFF = 0x9000 → decode w = .ok .clrerr) ∧
    ((∀ row ∈ opcodeRows, w &&& row.2 ≠ row.1) → ∃ reason, decode w = .error reason)

/-- 30_encoding.md R84, R85: a word with opcode 0xA to 0xF, and a word with a 1 in a reserved bit (it equals its row's
match under no mask), raises ILLEGAL_CMD and has no other effect; a word that equals a row's match under its mask is a
command. -/
def Obligations.IllegalWordsOnlyRaiseIllegalCmd : Prop :=
  ∀ w : Word,
    (10 ≤ (w.extractLsb' 12 4).toNat → IllegalWordOnly w) ∧
    ((∀ row ∈ opcodeRows, w &&& row.2 ≠ row.1) → IllegalWordOnly w) ∧
    ((∃ row ∈ opcodeRows, w &&& row.2 = row.1) → ∃ i, decode w = .ok i)

/-- Every command, every operand at every value its field admits: decoding its word gives it back (30_encoding.md
sections 1 and 2). -/
def Obligations.DecodeEncodeRoundTrip : Prop := ∀ i : Instr, decode (encode i) = .ok i

/-- A word that decodes has one meaning and is the word of that command: no bit is dropped (30_encoding.md sections 1
and 2). -/
def Obligations.EncodeDecodeRoundTrip : Prop := ∀ (w : Word) (i : Instr), decode w = .ok i → encode i = w

/-! ### Steps -/

/-- 00_scope.md R16, 30_encoding.md R80, with the model's way of presenting inputs (log 1, log 4): the word presented
first is consumed, the ports open, and its command is performed; a word that is no command raises ILLEGAL_CMD; and
`withFetchWord` is one way to present a word first (log 3). -/
def Obligations.StepPerformsPresentedCommand : Prop :=
  ∀ (s : State) (w : Word) (rest : List Input),
    (s.presented = .command w :: rest →
      (∀ i, decode w = .ok i →
        step s = exec i { s with presented := rest, strobes := [], rdata := none }) ∧
      (∀ reason, decode w = .error reason →
        step s = .next
          (State.faulted { s with presented := rest, strobes := [], rdata := none } .illegalCmd))) ∧
    (∀ i, decode w = .ok i →
      step (s.withFetchWord 16 w.toNat) = exec i { s with strobes := [], rdata := none })

/-- RESET is one step, sets every register to its reset value, emits no strobe and returns no read data
(70_reset_and_hazards.md R250). The clause on the two last fields is the model's own and no sentence of R250: what the
environment will present and the draw counter stay as they are (log 11, DEDUCED; the fields are log 1 and log 2). -/
def Obligations.ResetStepSetsEveryRegister : Prop :=
  ∀ (s : State) (rest : List Input), s.presented = .reset :: rest →
    step s = .next
      { pair := #v[0x00, 0x00, 0x00], src := #v[12, 1, 0, 31, 12, 17, 0, 0, 0],
        view := .time, lastView := .time, blink := false, setting := false, phase := 5, bStage := .idle,
        cathode := 0, anode := 0, pend := 0, ovr := 0, rolling := false, overCount := 0,
        fault := false, cause := .none, strobes := [], rdata := none, presented := rest, draws := s.draws }

/-- 10_state.md R44: the reset value of every register. -/
def Obligations.ResetValuesOfRegisters : Prop :=
  State.reset.pair = #v[0x00, 0x00, 0x00] ∧
  State.reset.src = #v[12, 1, 0, 31, 12, 17, 0, 0, 0] ∧
  State.reset.view.code = 0 ∧ State.reset.lastView.code = 0 ∧
  State.reset.blink = false ∧ State.reset.setting = false ∧
  State.reset.phase = 5 ∧ State.reset.bStage.code = 0 ∧
  State.reset.cathode = 0 ∧ State.reset.anode = 0 ∧ State.reset.pend = 0 ∧ State.reset.ovr = 0 ∧
  State.reset.rolling = false ∧ State.reset.rollArm = true ∧ State.reset.overCount = 0 ∧
  State.reset.fault = false ∧ State.reset.cause.code = 0

/-- The model's reading of "a free schedule (a draw per step)" (93_implementation_defined.md Part 1; log 2): where no
input is listed, the step performs the next draw, whatever it is. -/
def Obligations.UnlistedInputIsFree : Prop :=
  ∀ s : State, s.presented = [] →
    step s = performInput (Config.freeInput s.draws)
      { s with strobes := [], rdata := none, draws := s.draws + 1 }

/-- DMC never stops: every step, from any state and on any input, has a next state (60_exceptions.md section 1,
70_reset_and_hazards.md section 4). -/
def Obligations.EveryStepGoesOn : Prop := ∀ s : State, ∃ t, step s = .next t

/-! ### Control and access commands -/

/-- 43_control.md R203. -/
def Obligations.NopDoesNothing : Prop :=
  (∀ s : State, exec .nop s = .next s) ∧
  decode 0x0000 = .ok .nop ∧
  ∀ w : Word, 0x0001 ≤ w.toNat → w.toNat ≤ 0x0FFF → IllegalWordOnly w

/-- 43_control.md R200: SETTING and BLINK take the operand bits and nothing else changes. -/
def Obligations.SetctlWritesSettingAndBlink : Prop :=
  (∀ (setting blink : Bool) (s : State),
    ∃ t, exec (.setctl setting blink) s = .next t ∧
      t = { s with setting := t.setting, blink := t.blink } ∧ t.setting = setting ∧ t.blink = blink) ∧
  ∀ w : Word, w.extractLsb' 12 4 = 6 →
    (w.extractLsb' 2 10 = 0 → decode w = .ok (.setctl (w.getLsbD 1) (w.getLsbD 0))) ∧
    (w.extractLsb' 2 10 ≠ 0 → IllegalWordOnly w)

/-- 43_control.md R201: RD returns the register image and changes no register; an illegal RD word returns no data. -/
def Obligations.RdReturnsReadDataOnly : Prop :=
  (∀ (r : ReadIndex) (s : State), exec (.rd r) s = .next { s with rdata := some (s.regRead r) }) ∧
  ∀ w : Word, w.extractLsb' 12 4 = 8 →
    (w.extractLsb' 4 8 = 0 → ∃ r, decode w = .ok (.rd r) ∧ r.code = w.extractLsb' 0 4) ∧
    (w.extractLsb' 4 8 ≠ 0 → IllegalWordOnly w)

/-- 20_memory.md R66: the read map, index by index and field by field; reserved bits read 0. -/
def Obligations.ReadMapImages : Prop :=
  ∀ (s : State) (r : ReadIndex),
    ∃ v, exec (.rd r) s = .next { s with rdata := some v } ∧
      v.toNat =
        match r.code.toNat with
        | 0x0 => s.pair[0].toNat
        | 0x1 => s.pair[1].toNat
        | 0x2 => s.pair[2].toNat
        | 0x3 => s.cathode.toNat * 2 ^ 6 + s.anode.toNat
        | 0x4 => s.ovr.toNat * 2 ^ 12 + s.pend.toNat * 2 ^ 8 + s.bStage.code.toNat * 2 ^ 3 + s.phase.val
        | 0x5 =>
          s.setting.toNat * 2 ^ 13 + s.blink.toNat * 2 ^ 12 + s.view.code.toNat * 2 ^ 10 +
            s.lastView.code.toNat * 2 ^ 8 + (!s.rolling).toNat * 2 ^ 6 + s.rolling.toNat * 2 ^ 5 +
            s.overCount.toNat
        | 0x6 => s.fault.toNat * 2 ^ 15 + s.cause.code.toNat
        | k => (s.src.toList.getD (k - 7) 0).toNat

/-- No register is hidden: two states that answer every RD alike agree on every register (10_state.md R42, 20_memory.md
R66). -/
def Obligations.ReadsRevealEveryRegister : Prop :=
  ∀ s t : State,
    (∀ r : ReadIndex, ∃ v, exec (.rd r) s = .next { s with rdata := some v } ∧
      exec (.rd r) t = .next { t with rdata := some v }) →
    s.SameRegisters t

/-- 43_control.md R202: CLRERR clears FAULT, CAUSE and OVR and nothing else. -/
def Obligations.ClrerrClearsStickyStatus : Prop :=
  (∀ s : State,
    ∃ t, exec .clrerr s = .next t ∧
      t = { s with fault := t.fault, cause := t.cause, ovr := t.ovr } ∧
      t.fault = false ∧ t.cause.code = 0 ∧ t.ovr = 0) ∧
  ∀ w : Word, w.extractLsb' 12 4 = 9 →
    (w.extractLsb' 0 12 = 0 → decode w = .ok .clrerr) ∧ (w.extractLsb' 0 12 ≠ 0 → IllegalWordOnly w)

/-! ### Display buffer commands -/

/-- 40_display_buffer.md R110. The direct copy is stated where every latch holds 0 to 99, as 10_state.md R24 has it in
every reachable state. -/
def Obligations.TickCopiesOrStartsRoll : Prop :=
  (∀ s : State,
    (s.setting = true → exec .tick s = .next s) ∧
    (s.setting = false → s.view ≠ s.lastView → s.rolling = false →
      exec .tick s = .next { s with lastView := s.view, rolling := true, overCount := 0 }) ∧
    (s.setting = false → s.view ≠ s.lastView → s.rolling = true →
      exec .tick s = .next { s with lastView := s.view }) ∧
    (s.setting = false → s.view = s.lastView → s.rolling = true → exec .tick s = .next s) ∧
    (s.setting = false → s.view = s.lastView → s.rolling = false →
      ∃ t, exec .tick s = .next t ∧ t = { s with pair := t.pair } ∧
        ((∀ f : Fin 9, s.src[f].toNat ≤ 99) →
          ∀ (p : Fin 3) (k : Fin 2), digitOf t.pair[p] k = targetDigit s p k))) ∧
  ∀ w : Word, w.extractLsb' 12 4 = 3 →
    (w.extractLsb' 0 12 = 0 → decode w = .ok .tick) ∧ (w.extractLsb' 0 12 ≠ 0 → IllegalWordOnly w)

/-- 40_display_buffer.md R111: the table of the direct copy. -/
def Obligations.DirectCopyMapping : Prop :=
  ∀ s : State, s.setting = false → s.rolling = false → s.view = s.lastView →
    ∃ t, exec .tick s = .next t ∧
      (s.view.code = 0 → t.pair[2] = toBCD s.src[2] ∧ t.pair[1] = toBCD s.src[1] ∧ t.pair[0] = toBCD s.src[0]) ∧
      (s.view.code = 1 → t.pair[2] = toBCD s.src[5] ∧ t.pair[1] = toBCD s.src[4] ∧ t.pair[0] = toBCD s.src[3]) ∧
      (s.view.code = 2 → t.pair[2] = toBCD s.src[8] ∧ t.pair[1] = toBCD s.src[7] ∧ t.pair[0] = toBCD s.src[6])

/-- 00_scope.md R11, R12. The spec marks the nibble order (tens high, units low) as general knowledge, not in the source
(D38), and R12 as derived: log 10. -/
def Obligations.ToBCDPutsTensHigh : Prop :=
  ∀ n : Byte, n.toNat ≤ 99 → (toBCD n).toNat = 16 * (n.toNat / 10) + n.toNat % 10

/-- 40_display_buffer.md R112: the pair is replaced whole, or the command faults, index before datum. -/
def Obligations.WpairWritesOnePair : Prop :=
  (∀ (p : BitVec 2) (d : Byte) (s : State),
    (p = 3 → exec (.wpair p d) s = .next (s.faulted .badPair)) ∧
    (p ≠ 3 → (9 < d.toNat / 16 ∨ 9 < d.toNat % 16) → exec (.wpair p d) s = .next (s.faulted .badBcd)) ∧
    (p ≠ 3 → d.toNat / 16 ≤ 9 → d.toNat % 16 ≤ 9 →
      ∃ t, exec (.wpair p d) s = .next t ∧ t = { s with pair := t.pair } ∧
        ∀ q : Fin 3, t.pair[q] = if q.val = p.toNat then d else s.pair[q])) ∧
  ∀ w : Word, w.extractLsb' 12 4 = 4 →
    (w.extractLsb' 10 2 = 0 → decode w = .ok (.wpair (w.extractLsb' 8 2) (w.extractLsb' 0 8))) ∧
    (w.extractLsb' 10 2 ≠ 0 → IllegalWordOnly w)

/-- 40_display_buffer.md R113: VIEW is written and nothing else; code 3 faults. -/
def Obligations.SetviewWritesView : Prop :=
  (∀ (v : BitVec 2) (s : State),
    (v = 3 → exec (.setview v) s = .next (s.faulted .badView)) ∧
    (v ≠ 3 → ∃ t, exec (.setview v) s = .next t ∧ t = { s with view := t.view } ∧ t.view.code = v)) ∧
  ∀ w : Word, w.extractLsb' 12 4 = 5 →
    (w.extractLsb' 2 10 = 0 → decode w = .ok (.setview (w.extractLsb' 0 2))) ∧
    (w.extractLsb' 2 10 ≠ 0 → IllegalWordOnly w)

/-- 40_display_buffer.md R114: one latch is written and nothing else, or the command faults, index before datum; no
LDSRC word is illegal. -/
def Obligations.LdsrcLoadsOneLatch : Prop :=
  (∀ (f : BitVec 4) (n : Byte) (s : State),
    (9 ≤ f.toNat → exec (.ldsrc f n) s = .next (s.faulted .badField)) ∧
    (f.toNat < 9 → 99 < n.toNat → exec (.ldsrc f n) s = .next (s.faulted .range)) ∧
    (f.toNat < 9 → n.toNat ≤ 99 →
      ∃ t, exec (.ldsrc f n) s = .next t ∧ t = { s with src := t.src } ∧
        ∀ g : Fin 9, t.src[g] = if g.val = f.toNat then n else s.src[g])) ∧
  ∀ w : Word, w.extractLsb' 12 4 = 7 → decode w = .ok (.ldsrc (w.extractLsb' 8 4) (w.extractLsb' 0 8))

/-- While SETTING = 1 only WPAIR writes the buffer; while SETTING = 0 the writers are TICK when no roll is active, the
roll step while one is, and WPAIR (40_display_buffer.md R115, which the spec marks derived). -/
def Obligations.WritersOfTheBuffer : Prop :=
  ∀ (i : Instr) (s t : State), exec i s = .next t → t.pair ≠ s.pair →
    (∃ p d, i = .wpair p d) ∨
    (s.setting = false ∧ i = .tick ∧ s.rolling = false ∧ s.view = s.lastView) ∨
    (s.setting = false ∧ i = .dispatch ∧ s.pend.getLsbD 3 = true ∧ s.rolling = true)

/-- A WPAIR outside set mode is temporary: with no roll active and no view change the next TICK overwrites it
(70_reset_and_hazards.md R255, which the spec marks derived). -/
def Obligations.WpairOutsideSetModeIsOverwritten : Prop :=
  ∀ (p : BitVec 2) (d : Byte) (s : State), s.Inv → s.setting = false → s.rolling = false →
    s.view = s.lastView →
    ∃ t, afterCommands [.wpair p d, .tick] s = .next t ∧
      ∀ (q : Fin 3) (k : Fin 2), digitOf t.pair[q] k = targetDigit s q k

/-- A view change shows up late: SETVIEW and the TICK that sees the change leave the buffer as it was
(70_reset_and_hazards.md R257, which the spec marks derived). -/
def Obligations.ViewChangeShowsUpLate : Prop :=
  ∀ (v : BitVec 2) (s : State), s.lastView.code ≠ v → v ≠ 3 → s.setting = false →
    ∃ t, afterCommands (expandPseudo (.showView v)) s = .next t ∧
      t.pair = s.pair ∧ t.view.code = v ∧ t.lastView.code = v ∧ t.rolling = true ∧
      (s.rolling = false → t.overCount = 0) ∧ (s.rolling = true → t.overCount = s.overCount)

/-! ### Multiplexing -/

/-- 42_multiplexing.md R170: PEND[ch] is set, OVR[ch] is set if PEND[ch] was 1, and nothing else changes. -/
def Obligations.FireRecordsTheFiring : Prop :=
  (∀ (ch : Channel) (s : State),
    ∃ t, exec (.fire ch) s = .next t ∧ t = { s with pend := t.pend, ovr := t.ovr } ∧
      ∀ k : Fin 4,
        t.pend.getLsbD k = (s.pend.getLsbD k || k.val == ch.code.toNat) ∧
        t.ovr.getLsbD k = (s.ovr.getLsbD k || (k.val == ch.code.toNat && s.pend.getLsbD k))) ∧
  ∀ w : Word, w.extractLsb' 12 4 = 1 →
    (w.extractLsb' 2 10 = 0 → ∃ ch, decode w = .ok (.fire ch) ∧ ch.code = w.extractLsb' 0 2) ∧
    (w.extractLsb' 2 10 ≠ 0 → IllegalWordOnly w)

/-- 42_multiplexing.md R171: the flags read are cleared in the same step and their handlers run in the order A, B, C, D,
each in the state the one before it left. The handlers are those of R172, R173, R174 and 41_animation.md R140. -/
def Obligations.DispatchClearsAndServicesInOrder : Prop :=
  (∀ s : State,
    ∃ a b c d : State,
      a = (if s.pend.getLsbD 0 then handleA { s with pend := 0 } else { s with pend := 0 }) ∧
      b = (if s.pend.getLsbD 1 then handleB a else a) ∧
      c = (if s.pend.getLsbD 2 then handleC b else b) ∧
      d = (if s.pend.getLsbD 3 then handleD c else c) ∧
      exec .dispatch s = .next d ∧ d.pend = 0) ∧
  (∀ s : State, s.pend = 0 → exec .dispatch s = .next s) ∧
  ∀ w : Word, w.extractLsb' 12 4 = 2 →
    (w.extractLsb' 0 12 = 0 → decode w = .ok .dispatch) ∧ (w.extractLsb' 0 12 ≠ 0 → IllegalWordOnly w)

/-- The frame of DISPATCH: what it may write at all, and what each handler that does not run leaves alone
(42_multiplexing.md sections 1 and 2, 41_animation.md R140). -/
def Obligations.DispatchFrame : Prop :=
  ∀ s t : State, exec .dispatch s = .next t →
    t = { s with pair := t.pair, lastView := t.lastView, phase := t.phase, bStage := t.bStage,
                 cathode := t.cathode, anode := t.anode, pend := t.pend, rolling := t.rolling,
                 overCount := t.overCount, strobes := t.strobes } ∧
    (s.pend.getLsbD 0 = false → t.phase = s.phase) ∧
    (s.pend.getLsbD 0 = false → s.pend.getLsbD 1 = false →
      t.bStage = s.bStage ∧ t.cathode = s.cathode ∧ t.anode = s.anode) ∧
    (s.pend.getLsbD 3 = false →
      t.pair = s.pair ∧ t.lastView = s.lastView ∧ t.rolling = s.rolling ∧ t.overCount = s.overCount) ∧
    (s.pend = 0 → t.strobes = s.strobes)

/-- 42_multiplexing.md R172: the channel A handler. -/
def Obligations.ChannelABlanksAndAdvances : Prop :=
  ∀ s : State, s.pend = 0b0001 →
    ∃ t, exec .dispatch s = .next t ∧ t.phase.val = (s.phase.val + 1) % 6 ∧
      (s.blink = true →
        t = { s with pend := 0, cathode := 0, anode := 0, phase := t.phase, bStage := .idle }) ∧
      (s.blink = false →
        t = { s with pend := 0, cathode := 0, anode := 0, phase := t.phase, bStage := .cath,
                     strobes := s.strobes ++ [.armB] })

/-- 42_multiplexing.md R173, R175: the channel B handler. The cathode pattern is stated for a digit 0 to 9, as 10_state.md
R22 has it in every reachable state. -/
def Obligations.ChannelBShowsThePhaseDigit : Prop :=
  ∀ s : State, s.pend = 0b0010 →
    (s.blink = true → exec .dispatch s = .next { s with pend := 0, bStage := .idle }) ∧
    (s.blink = false → s.bStage = .idle → exec .dispatch s = .next { s with pend := 0 }) ∧
    (s.blink = false → s.bStage = .cath →
      ∃ t, exec .dispatch s = .next t ∧
        t = { s with pend := 0, cathode := t.cathode, bStage := .anode, strobes := s.strobes ++ [.armB] } ∧
        ∀ d : Fin 10, digitAt s.pair s.phase = d.val → t.cathode = 1#10 <<< d.val) ∧
    (s.blink = false → s.bStage = .anode →
      exec .dispatch s = .next { s with pend := 0, anode := 1#6 <<< s.phase.val, bStage := .idle })

/-- 42_multiplexing.md R174: the channel C handler. -/
def Obligations.ChannelCPassesTheTickOn : Prop :=
  ∀ s : State, s.pend = 0b0100 →
    exec .dispatch s = .next { s with pend := 0, strobes := s.strobes ++ [.cTick] }

/-- 42_multiplexing.md R180: a B firing with nothing due and BLINK = 0 changes nothing, is no fault and no overrun. -/
def Obligations.UndueBFiringIsIgnored : Prop :=
  ∀ s : State, s.blink = false → s.bStage = .idle → s.pend = 0 →
    ∃ t, afterCommands [.fire .b, .dispatch] s = .next t ∧ s.SameRegisters t ∧ t.strobes = []

/-- A and B in one snapshot: A runs first, B acts as the new phase's first occurrence, and two ARM_B are emitted
(42_multiplexing.md R179, which the spec marks derived). -/
def Obligations.SnapshotOfAAndB : Prop :=
  ∀ s : State, s.Inv → s.pend = 0b0011 → s.blink = false →
    ∃ t, exec .dispatch s = .next t ∧ t.phase.val = (s.phase.val + 1) % 6 ∧
      t = { s with pend := 0, phase := t.phase, anode := 0, cathode := t.cathode, bStage := .anode,
                   strobes := s.strobes ++ [.armB, .armB] } ∧
      t.cathode = 1#10 <<< digitAt s.pair t.phase

/-- One phase, step by step, and the order in which phases are visited (42_multiplexing.md R177, which the spec marks
derived). -/
def Obligations.ScanLightsThePhases : Prop :=
  ∀ s : State, s.Inv → s.blink = false → s.pend = 0 →
    (∃ t, afterCommands [.fire .a, .dispatch] s = .next t ∧ t.phase.val = (s.phase.val + 1) % 6 ∧
      t.bStage = .cath ∧ t.cathode = 0 ∧ t.anode = 0) ∧
    (∃ t, afterCommands [.fire .a, .dispatch, .fire .b, .dispatch] s = .next t ∧
      t.phase.val = (s.phase.val + 1) % 6 ∧ t.bStage = .anode ∧ t.anode = 0 ∧
      t.cathode = 1#10 <<< digitAt s.pair t.phase) ∧
    ∀ n : Nat, ∃ t, afterCommands (scans (n + 1)) s = .next t ∧
      t.phase.val = (s.phase.val + n + 1) % 6 ∧ t.bStage = .idle ∧ t.anode = 1#6 <<< t.phase.val ∧
      t.cathode = 1#10 <<< digitAt s.pair t.phase

/-- What a SCAN puts out (70_reset_and_hazards.md R259): with BLINK = 0 one ARM_B from each of its first two DISPATCHes
and nothing else; with BLINK = 1 nothing at all, and the phase stays dark (42_multiplexing.md R172, R173, R177;
43_control.md R200 example). -/
def Obligations.ObservationOfAScan : Prop :=
  ∀ s : State, s.pend = 0 →
    (s.blink = false →
      outputsOfRun 6 { s with presented := presentation (expandPseudo .scan) } =
        [⟨[], none⟩, ⟨[.armB], none⟩, ⟨[], none⟩, ⟨[.armB], none⟩, ⟨[], none⟩, ⟨[], none⟩]) ∧
    (s.blink = true →
      outputsOfRun 6 { s with presented := presentation (expandPseudo .scan) } = List.replicate 6 ⟨[], none⟩ ∧
      ∃ t, afterCommands (expandPseudo .scan) s = .next t ∧ t.phase.val = (s.phase.val + 1) % 6 ∧
        t.bStage = .idle ∧ t.cathode = 0 ∧ t.anode = 0)

/-- Firings of one channel before a DISPATCH are merged: its handler runs once and OVR records it
(42_multiplexing.md R178, which the spec marks derived). -/
def Obligations.MergedFiringsRunOnce : Prop :=
  ∀ (ch : Channel) (k : Nat) (s : State),
    ∃ t u, afterCommands (List.replicate (k + 2) (.fire ch) ++ [.dispatch]) s = .next t ∧
      afterCommands [.fire ch, .dispatch] s = .next u ∧
      t = { u with ovr := t.ovr } ∧ t.ovr.getLsbD ch.code.toNat = true

/-! ### The roll -/

/-- 41_animation.md R140, R141: one roll step. Stated where every nibble is a digit and every latch holds 0 to 99, as in
every reachable state (10_state.md R43). -/
def Obligations.RollStepTurnsEveryNibble : Prop :=
  ∀ s : State, s.pend = 0b1000 →
    ((s.setting = true ∨ s.rolling = false) → exec .dispatch s = .next { s with pend := 0 }) ∧
    (s.setting = false → s.rolling = true → s.Inv →
      ∃ new : Vector Byte 3,
        (∀ (p : Fin 3) (k : Fin 2),
          digitOf new[p] k =
            if 9 < s.overCount.toNat ∧ digitOf s.pair[p] k = targetDigit s p k then digitOf s.pair[p] k
            else (digitOf s.pair[p] k + 1) % 10) ∧
        exec .dispatch s = .next
          (if 9 < min (s.overCount.toNat + 1) 31 ∧
              ∀ (p : Fin 3) (k : Fin 2), digitOf new[p] k = targetDigit s p k then
            { s with pend := 0, pair := new, rolling := false, overCount := 0, lastView := s.view,
                     strobes := s.strobes ++ [.rollDone] }
          else
            { s with pend := 0, pair := new,
                     overCount := BitVec.ofNat 5 (min (s.overCount.toNat + 1) 31) }))

/-- 41_animation.md R143: a roll starts only in TICK, when VIEW != LAST_VIEW, SETTING = 0 and the latch is set, and it
starts from OVER = 0; a view change while a roll runs joins it; a view change never snaps the buffer; only completion in a
DISPATCH sets the latch again. -/
def Obligations.RollStartsOnlyInTick : Prop :=
  (∀ (i : Instr) (s t : State), exec i s = .next t → s.rolling = false → t.rolling = true →
    i = .tick ∧ s.view ≠ s.lastView ∧ s.setting = false ∧ s.rollArm = true ∧
      t.overCount = 0 ∧ t.pair = s.pair) ∧
  (∀ s : State, s.view ≠ s.lastView → s.setting = false → s.rollArm = true →
    ∃ t, exec .tick s = .next t ∧ t.rolling = true ∧ t.rollArm = false ∧ t.overCount = 0) ∧
  (∀ s : State, s.view ≠ s.lastView → s.rolling = true →
    ∃ t, exec .tick s = .next t ∧ t.rolling = true ∧ t.overCount = s.overCount) ∧
  (∀ s t : State, s.view ≠ s.lastView → exec .tick s = .next t → t.pair = s.pair) ∧
  (∀ (i : Instr) (s t : State), exec i s = .next t → s.rolling = true → t.rolling = false →
    i = .dispatch ∧ t.rollArm = true)

/-- 41_animation.md R142: what completion of a roll does, that a roll step which leaves every pair at its target past the
floor completes the roll, and that ROLL_DONE stands for nothing else. -/
def Obligations.RollCompletionIsAnnounced : Prop :=
  ∀ (i : Instr) (s t : State), s.Inv → exec i s = .next t →
    (s.rolling = true → t.rolling = false →
      i = .dispatch ∧ s.setting = false ∧ s.pend.getLsbD 3 = true ∧ 9 ≤ s.overCount.toNat ∧
      (∀ (p : Fin 3) (k : Fin 2), digitOf t.pair[p] k = targetDigit s p k) ∧
      t.overCount = 0 ∧ t.lastView = s.view ∧
      t.strobes.count .rollDone = s.strobes.count .rollDone + 1 ∧ t.strobes.getLast? = some .rollDone) ∧
    (i = .dispatch → s.pend.getLsbD 3 = true → s.rolling = true → s.setting = false → 9 ≤ s.overCount.toNat →
      (∀ (p : Fin 3) (k : Fin 2), digitOf t.pair[p] k = targetDigit s p k) → t.rolling = false) ∧
    (t.strobes.count .rollDone ≠ s.strobes.count .rollDone → s.rolling = true ∧ t.rolling = false)

/-- A roll left undisturbed completes in exactly N = 10 + (the largest nibble distance) roll steps, between 10 and 19, with
the buffer at the targets (41_animation.md R145, which the spec marks derived). -/
def Obligations.RollCompletesInExactlyNSteps : Prop :=
  ∀ s : State, s.Inv → s.rolling = true → s.setting = false → s.overCount = 0 →
    (10 ≤ 10 + largestDistance s ∧ 10 + largestDistance s ≤ 19) ∧
    (∀ k : Nat, k < 10 + largestDistance s →
      ∃ t, afterCommands (rollSteps k) s = .next t ∧ t.rolling = true ∧ t.overCount.toNat = k) ∧
    ∃ t, afterCommands (rollSteps (10 + largestDistance s)) s = .next t ∧
      t.rolling = false ∧ t.overCount = 0 ∧ t.lastView = s.view ∧ t.strobes = [.rollDone] ∧
      ∀ (p : Fin 3) (k : Fin 2), digitOf t.pair[p] k = targetDigit s p k

/-- During roll steps 1 to 10 every nibble takes each of the values 0 to 9 exactly once, also when it starts on its target
(41_animation.md R146, which the spec marks derived). -/
def Obligations.RollShowsEveryDigit : Prop :=
  ∀ s : State, s.Inv → s.rolling = true → s.setting = false → s.overCount = 0 →
    ∀ (p : Fin 3) (k : Fin 2) (d : Fin 10),
      ∃ j : Fin 10,
        (∃ t, afterCommands (rollSteps (j.val + 1)) s = .next t ∧ digitOf t.pair[p] k = d.val) ∧
        ∀ (j' : Fin 10) (t : State), afterCommands (rollSteps (j'.val + 1)) s = .next t →
          digitOf t.pair[p] k = d.val → j' = j

/-- Wherever a roll stands, and whatever the buffer held when it got there, at most 19 roll steps complete it, and at most
9 once the floor is passed (41_animation.md R147, which the spec marks derived). -/
def Obligations.EveryRollCompletes : Prop :=
  ∀ s : State, s.Inv → s.rolling = true → s.setting = false →
    ∃ (k : Nat) (t : State), 1 ≤ k ∧ k ≤ 19 ∧ (9 < s.overCount.toNat → k ≤ 9) ∧
      afterCommands (rollSteps k) s = .next t ∧ t.rolling = false ∧ .rollDone ∈ t.strobes ∧
      ∀ (p : Fin 3) (k : Fin 2), digitOf t.pair[p] k = targetDigit s p k

/-- Under SETTING = 1 a roll is frozen whatever else the environment issues, and only WPAIR moves the buffer
(41_animation.md section on the pause, R148; 40_display_buffer.md R115). -/
def Obligations.SetModeFreezesTheRoll : Prop :=
  ∀ (is : List Instr) (s : State), s.setting = true → (∀ i ∈ is, ∀ b b', i ≠ .setctl b b') →
    ∃ t, afterCommands is s = .next t ∧ t.setting = true ∧
      t.rolling = s.rolling ∧ t.overCount = s.overCount ∧ t.lastView = s.lastView ∧
      ((∀ i ∈ is, ∀ p d, i ≠ .wpair p d) → t.pair = s.pair)

/-! ### Faults -/

/-- 60_exceptions.md R223, 30_encoding.md R86: from a state with no fault recorded, the cause a word records is the first
failing check: decode, index, datum; where a fault is recorded, no word but CLRERR changes the record. -/
def Obligations.FirstFailingCheckIsRaised : Prop :=
  (∀ (w : Word) (s : State), s.fault = true → w ≠ 0x9000 →
    ∃ t, performWord w s = .next t ∧ t.fault = true ∧ t.cause = s.cause) ∧
  ∀ (w : Word) (s : State), s.fault = false → s.cause = .none →
    ∃ t, performWord w s = .next t ∧
      t.cause =
        (if ∀ row ∈ opcodeRows, w &&& row.2 ≠ row.1 then .illegalCmd
         else if w.extractLsb' 12 4 = 4 ∧ w.extractLsb' 8 2 = 3 then .badPair
         else if w.extractLsb' 12 4 = 5 ∧ w.extractLsb' 0 2 = 3 then .badView
         else if w.extractLsb' 12 4 = 7 ∧ 9 ≤ (w.extractLsb' 8 4).toNat then .badField
         else if w.extractLsb' 12 4 = 4 ∧ (9 < (w.extractLsb' 4 4).toNat ∨ 9 < (w.extractLsb' 0 4).toNat) then
           .badBcd
         else if w.extractLsb' 12 4 = 7 ∧ 99 < (w.extractLsb' 0 8).toNat then .range
         else .none) ∧
      (t.fault = true ↔ t.cause ≠ .none)

/-- 60_exceptions.md R222: a word that is no command, and a command that names a reserved value, leave the state before
them plus FAULT and the first CAUSE; a command that names none leaves the record alone, but for CLRERR. -/
def Obligations.FaultsArePrecise : Prop :=
  (∀ (w : Word) (s : State), (∀ i, decode w ≠ .ok i) → performWord w s = .next (s.faulted .illegalCmd)) ∧
  (∀ (i : Instr) (s : State), i.wellFormed = false →
    ∃ c, c ≠ .none ∧ exec i s = .next (s.faulted c)) ∧
  (∀ (i : Instr) (s t : State), i.wellFormed = true → i ≠ .clrerr → exec i s = .next t →
    t.fault = s.fault ∧ t.cause = s.cause)

/-- FAULT is sticky: only CLRERR and RESET clear it (60_exceptions.md R224; the rest of that rule is about lines DMC does
not have). -/
def Obligations.OnlyClrerrAndResetClearFault : Prop :=
  ∀ s t : State, step s = .next t → s.fault = true → t.fault = false →
    s.nextInput = .reset ∨ s.nextInput = .command 0x9000

/-! ### Invariants and whole-machine rules -/

/-- The two premises on the end of a run mean what they say, for a run of commands without CLRERR: FAULT = 0 at its end,
then no command was refused; OVR = 0 at its end, then no FIRE met its own flag (60_exceptions.md R224,
42_multiplexing.md R178). -/
def Obligations.CleanStatusAtTheEnd : Prop :=
  ∀ (is : List Instr) (s t : State), (∀ i ∈ is, i ≠ .clrerr) → afterCommands is s = .next t →
    (t.noneRefused → ∀ i ∈ is, i.wellFormed = true) ∧
    (t.noneMerged → ∀ (before after : List Instr) (ch : Channel), is = before ++ .fire ch :: after →
      ∃ u, afterCommands before s = .next u ∧ u.pend.getLsbD ch.code.toNat = false)

/-- The invariants (a) to (k) of 10_state.md R43 hold after reset. -/
def Obligations.ResetMeetsInvariants : Prop := State.reset.Inv

/-- Every step keeps the invariants (a) to (k) of 10_state.md R43, whatever the input. -/
def Obligations.StepKeepsInvariants : Prop := ∀ s t : State, s.Inv → step s = .next t → t.Inv

/-- The invariants (a) to (k) hold in every state reachable from reset, for every list of command words and resets the
environment may present (10_state.md R43, which the spec marks derived). -/
def Obligations.ReachableStatesMeetInvariants : Prop :=
  ∀ (is : List Input) (t : State),
    Host.Core.run Sys2Proof.core is.length (State.resetPresenting is) = .next t → t.Inv

/-- Which commands write each register: the "Writers" of 10_state.md sections 1 to 5, and who drives the ports. The last
clause is about the model's own two fields and is the model's choice, no rule of 10_state.md: no command touches what the
environment will present (log 1, DESIGN CHOICE) or the draw counter (log 2, DESIGN CHOICE). -/
def Obligations.WritersOfEachRegister : Prop :=
  ∀ (i : Instr) (s t : State), exec i s = .next t →
    (t.pair ≠ s.pair → i = .tick ∨ (∃ p d, i = .wpair p d) ∨ i = .dispatch) ∧
    (t.src ≠ s.src → ∃ f n, i = .ldsrc f n) ∧
    (t.view ≠ s.view → ∃ v, i = .setview v) ∧
    (t.lastView ≠ s.lastView → i = .tick ∨ i = .dispatch) ∧
    (t.blink ≠ s.blink ∨ t.setting ≠ s.setting → ∃ b b', i = .setctl b b') ∧
    (t.phase ≠ s.phase ∨ t.bStage ≠ s.bStage ∨ t.cathode ≠ s.cathode ∨ t.anode ≠ s.anode → i = .dispatch) ∧
    (t.pend ≠ s.pend → (∃ ch, i = .fire ch) ∨ i = .dispatch) ∧
    (t.ovr ≠ s.ovr → (∃ ch, i = .fire ch) ∨ i = .clrerr) ∧
    (t.rolling ≠ s.rolling ∨ t.overCount ≠ s.overCount → i = .tick ∨ i = .dispatch) ∧
    (t.fault ≠ s.fault ∨ t.cause ≠ s.cause → i.wellFormed = false ∨ i = .clrerr) ∧
    (t.strobes ≠ s.strobes → i = .dispatch) ∧
    (t.rdata ≠ s.rdata → ∃ r, i = .rd r) ∧
    t.presented = s.presented ∧ t.draws = s.draws

/-- Every command but FIRE is idempotent in state; a second FIRE sets OVR, and a second DISPATCH emits nothing
(20_memory.md R65; the spec marks its argument derived). -/
def Obligations.CommandsButFireAreIdempotent : Prop :=
  ∀ (i : Instr) (s t : State), exec i s = .next t →
    ∃ u, exec i t = .next u ∧
      ((∀ ch, i ≠ .fire ch) → t.SameRegisters u ∧ u.strobes = t.strobes ∧ u.rdata = t.rdata) ∧
      (∀ ch, i = .fire ch → u.ovr.getLsbD ch.code.toNat = true)

/-- What a step can emit: only a DISPATCH emits, C_TICK and ROLL_DONE at most once, ARM_B at most twice, in the order of
the handlers; only an RD returns read data (10_state.md section 6 on strobes and read data). -/
def Obligations.StrobesOfOneStep : Prop :=
  ∀ s t : State, step s = .next t →
    (t.strobes ≠ [] → s.nextInput = .command 0x2000) ∧
    (∃ armBs cTicks rollDones : Nat, armBs ≤ 2 ∧ cTicks ≤ 1 ∧ rollDones ≤ 1 ∧
      t.strobes =
        List.replicate armBs .armB ++ List.replicate cTicks .cTick ++ List.replicate rollDones .rollDone) ∧
    (t.rdata ≠ none → ∃ r : ReadIndex, s.nextInput = .command (0x8000 ||| r.code.zeroExtend 16))

/-- What reset implies: the first TICK shows 00:01:12 and the first channel A handler selects phase 0, after any commands
that leave SRC, VIEW and SETTING alone and come before them (70_reset_and_hazards.md R252, which the spec marks
derived). -/
def Obligations.FirstTickAndFirstPhaseAfterReset : Prop :=
  (∀ is : List Instr,
    (∀ i ∈ is, i ≠ .tick ∧ (∀ v, i ≠ .setview v) ∧ (∀ f n, i ≠ .ldsrc f n) ∧ ∀ b b', i ≠ .setctl b b') →
    ∃ t, afterCommands (is ++ [.tick]) State.reset = .next t ∧ t.pair = #v[0x12, 0x01, 0x00]) ∧
  (∀ is : List Instr, (∀ i ∈ is, i ≠ .fire .a) →
    ∃ t, afterCommands (is ++ [.fire .a, .dispatch]) State.reset = .next t ∧ t.phase = 0)

/-- A channel that fires only after its last firing was dispatched is never overrun: under duty E3 a step leaves OVR as it
is or clears it (70_reset_and_hazards.md R256 E3, as the model reads it in `keepsE3`; 42_multiplexing.md R178). -/
def Obligations.DutyE3PreventsOverrun : Prop :=
  ∀ s t : State, step s = .next t → keepsE3 s s.nextInput = true → t.ovr = s.ovr ∨ t.ovr = 0

/-- Under duties E1 and E2 no DISPATCH finds A and B pending together, so no blanking window has length zero: the
condition holds after reset and every step that keeps the duties keeps it (70_reset_and_hazards.md R256 as the model
reads it in `keepsE1` and `keepsE2`; 42_multiplexing.md R179). -/
def Obligations.DutiesKeepTheBlankingWindow : Prop :=
  (State.reset.pend.getLsbD 0 = true → State.reset.bStage = .idle ∧ State.reset.pend.getLsbD 1 = false) ∧
  ∀ s t : State, step s = .next t → keepsE1 s s.nextInput = true → keepsE2 s s.nextInput = true →
    (s.pend.getLsbD 0 = true → s.bStage = .idle ∧ s.pend.getLsbD 1 = false) →
    (t.pend.getLsbD 0 = true → t.bStage = .idle ∧ t.pend.getLsbD 1 = false)

/-- Under duty E7 BLINK is 1 only in set mode: the condition holds after reset and every step that keeps the duty keeps it
(70_reset_and_hazards.md R256 E7, as the model reads it in `keepsE7`). -/
def Obligations.DutyE7KeepsBlinkInSetMode : Prop :=
  (State.reset.blink = true → State.reset.setting = true) ∧
  ∀ s t : State, step s = .next t → keepsE7 s s.nextInput = true →
    (s.blink = true → s.setting = true) → (t.blink = true → t.setting = true)

/-- Every run from reset that keeps the duties E1, E2, E3 and E7 ends with no firing merged, with no phase cut short by
an A that is pending, and with BLINK only in set mode (70_reset_and_hazards.md R256, as the model reads the duties). -/
def Obligations.DutifulRunsScanUndisturbed : Prop :=
  ∀ (is : List Input) (t : State), keepsDutiesFor is.length (State.resetPresenting is) →
    Host.Core.run Sys2Proof.core is.length (State.resetPresenting is) = .next t →
      t.noneMerged ∧ (t.pend.getLsbD 0 = true → t.bStage = .idle ∧ t.pend.getLsbD 1 = false) ∧
      (t.blink = true → t.setting = true)

/-- The scan does not depend on what is displayed: from two states that agree on BLINK, PHASE, B_STAGE, ANODE and PEND,
the same command leaves them agreeing (42_multiplexing.md sections 1 and 2). -/
def Obligations.ScanIgnoresDisplayedData : Prop :=
  ∀ (i : Instr) (s t s' t' : State), exec i s = .next t → exec i s' = .next t' →
    s.blink = s'.blink → s.phase = s'.phase → s.bStage = s'.bStage → s.anode = s'.anode →
    s.pend = s'.pend →
    t.blink = t'.blink ∧ t.phase = t'.phase ∧ t.bStage = t'.bStage ∧ t.anode = t'.anode ∧ t.pend = t'.pend

/-- The animation does not depend on the scan: from two states that agree on the buffer, the latches, the views, SETTING,
the roll and PEND, the same command leaves them agreeing ("The animation step rate is independent of the 1 Hz time
tick", 41_animation.md; R140). -/
def Obligations.RollIgnoresTheScan : Prop :=
  ∀ (i : Instr) (s t s' t' : State), exec i s = .next t → exec i s' = .next t' →
    s.pair = s'.pair → s.src = s'.src → s.view = s'.view → s.lastView = s'.lastView →
    s.setting = s'.setting → s.rolling = s'.rolling → s.overCount = s'.overCount → s.pend = s'.pend →
    t.pair = t'.pair ∧ t.src = t'.src ∧ t.view = t'.view ∧ t.lastView = t'.lastView ∧
      t.setting = t'.setting ∧ t.rolling = t'.rolling ∧ t.overCount = t'.overCount ∧ t.pend = t'.pend
end

