-- ==== Sys2Proof/Laws/Bcd.lean ====
section
/-!
SUPPORT. The nibble, BCD and one-hot helpers: a byte is its two nibbles, a digit stays a digit, and a target's digits are
the decimal digits of the field.
-/

namespace Sys2Proof.Machine

/-! ### Nibbles -/

/-- Concatenation read on naturals: `a` in the more significant bits (00_scope.md R9). -/
theorem append_toNat {m n : Nat} (a : BitVec m) (b : BitVec n) : (a ++ b).toNat = a.toNat * 2 ^ n + b.toNat := by
  rw [BitVec.toNat_append, Nat.shiftLeft_eq, Nat.mul_comm, ← Nat.two_pow_add_eq_or_of_lt b.isLt]

theorem mk_toNat (h l : Nibble) : (mk h l).toNat = h.toNat * 16 + l.toNat := append_toNat h l

theorem lo_toNat (b : Byte) : (lo b).toNat = b.toNat % 16 := by simp [lo]

theorem hi_toNat (b : Byte) : (hi b).toNat = b.toNat / 16 := by
  have := b.isLt
  simp [hi, Nat.shiftRight_eq_div_pow]
  omega

@[simp] theorem lo_mk (h l : Nibble) : lo (mk h l) = l := by
  apply BitVec.eq_of_toNat_eq
  rw [lo_toNat, mk_toNat]
  omega

@[simp] theorem hi_mk (h l : Nibble) : hi (mk h l) = h := by
  apply BitVec.eq_of_toNat_eq
  rw [hi_toNat, mk_toNat]
  omega

/-- A byte is its two nibbles. -/
theorem byte_ext {a b : Byte} (hl : lo a = lo b) (hh : hi a = hi b) : a = b := by
  apply BitVec.eq_of_toNat_eq
  have h1 := congrArg BitVec.toNat hl
  have h2 := congrArg BitVec.toNat hh
  rw [lo_toNat, lo_toNat] at h1
  rw [hi_toNat, hi_toNat] at h2
  omega

@[simp] theorem mk_hi_lo (b : Byte) : mk (hi b) (lo b) = b := byte_ext (by simp) (by simp)

theorem digitOf_zero (b : Byte) : digitOf b 0 = (lo b).toNat := by simp [digitOf, lo_toNat]

theorem digitOf_one (b : Byte) : digitOf b 1 = (hi b).toNat := by
  have := b.isLt
  simp [digitOf, hi_toNat]
  omega

/-- The digit a phase shows is the nibble `nib` selects. -/
theorem digitOf_eq_nib (b : Byte) (k : Fin 2) : digitOf b k = (nib b k).toNat := by
  match k with
  | 0 => simpa [nib] using digitOf_zero b
  | 1 => simpa [nib] using digitOf_one b

theorem isBCD_iff (b : Byte) : isBCD b = true ↔ b.toNat % 16 ≤ 9 ∧ b.toNat / 16 ≤ 9 := by
  simp [isBCD, lo_toNat, hi_toNat]

/-! ### Digits -/

theorem inc10_toNat {n : Nibble} (h : n.toNat ≤ 9) : (inc10 n).toNat = (n.toNat + 1) % 10 := by
  simp [inc10, h]
  omega

theorem inc10_le {n : Nibble} (h : n.toNat ≤ 9) : (inc10 n).toNat ≤ 9 := by
  rw [inc10_toNat h]
  omega

theorem lo_toBCD {n : Byte} (h : n.toNat ≤ 99) : (lo (toBCD n)).toNat = n.toNat % 10 := by
  simp [toBCD, h]
  omega

theorem hi_toBCD {n : Byte} (h : n.toNat ≤ 99) : (hi (toBCD n)).toNat = n.toNat / 10 := by
  simp [toBCD, h]
  omega

theorem cathodePattern_of_digit {d : Nibble} (h : d.toNat ≤ 9) : cathodePattern d = 1#10 <<< d.toNat := by
  simp [cathodePattern, h]

theorem cathodePattern_ne_zero {d : Nibble} (h : d.toNat ≤ 9) : cathodePattern d ≠ 0 := by
  rw [cathodePattern_of_digit h]
  generalize d.toNat = k at h
  interval_cases k <;> decide

/-! ### Targets -/

/-- The latch of a view and a pair is `SRC[3*v + p]` (00_scope.md R14). -/
theorem fieldIndex_val (v : View) (p : Fin 3) : (fieldIndex v p).val = 3 * v.code.toNat + p.val := by
  cases v <;> simp [fieldIndex, View.code]

theorem shownValue_eq (s : State) (p : Fin 3) : shownValue s p = s.src[fieldIndex s.view p].toNat := by
  have h := fieldIndex_val s.view p
  simp only [shownValue, ← h]
  rw [List.getD_eq_getElem _ _ (by simp)]
  simp

theorem lo_target {s : State} (hf : ∀ f : Fin 9, s.src[f].toNat ≤ 99) (p : Fin 3) :
    (lo (s.target p)).toNat = targetDigit s p 0 := by
  rw [State.target, lo_toBCD (hf _), targetDigit, shownValue_eq]
  simp

theorem hi_target {s : State} (hf : ∀ f : Fin 9, s.src[f].toNat ≤ 99) (p : Fin 3) :
    (hi (s.target p)).toNat = targetDigit s p 1 := by
  have := hf (fieldIndex s.view p)
  rw [State.target, hi_toBCD (hf _), targetDigit, shownValue_eq, Fin.val_one, pow_one]
  omega

/-- The digits of a target are the decimal digits of the shown field. -/
theorem digitOf_target {s : State} (hf : ∀ f : Fin 9, s.src[f].toNat ≤ 99) (p : Fin 3) (k : Fin 2) :
    digitOf (s.target p) k = targetDigit s p k := by
  match k with
  | 0 => rw [digitOf_zero, lo_target hf]
  | 1 => rw [digitOf_one, hi_target hf]

theorem targetDigit_lt (s : State) (p : Fin 3) (k : Fin 2) : targetDigit s p k < 10 := Nat.mod_lt _ (by decide)

theorem targets_get (s : State) (p : Fin 3) : s.targets[p] = s.target p := by
  match p with
  | 0 => rfl
  | 1 => rfl
  | 2 => rfl

/-- The nibble channel B shows is the digit of the selected position (42_multiplexing.md R173, R175). -/
theorem phaseDigit_toNat (s : State) : s.phaseDigit.toNat = digitAt s.pair s.phase := (digitOf_eq_nib _ _).symm

end Sys2Proof.Machine
end

