-- ==== Sys2Proof/Laws/Decode.lean ====
section
/-!
SUPPORT. The codes of the named operands, both ways, and the shape of every decoding.
-/

namespace Sys2Proof

@[simp] theorem channelOfCode_code (ch : Channel) : channelOfCode ch.code = ch := by cases ch <;> rfl

@[simp] theorem code_channelOfCode (c : BitVec 2) : (channelOfCode c).code = c := by revert c; decide

@[simp] theorem readIndexOfCode_code (r : ReadIndex) : readIndexOfCode r.code = r := by cases r <;> rfl

@[simp] theorem code_readIndexOfCode (c : BitVec 4) : (readIndexOfCode c).code = c := by revert c; decide

/-- The row of an opcode is the one its pattern's opcode bits select. -/
theorem opcodeOfBits_pattern (o : Opcode) : opcodeOfBits (opcodeBits o.pattern) = some o := by cases o <;> rfl

/-- The opcode bits of every row belong to its mask: a word that matches the row has the row's opcode. -/
theorem opcodeBits_of_match {w : Word} {o : Opcode} (h : w &&& o.mask = o.pattern) :
    opcodeBits w = opcodeBits o.pattern := by
  have hm : o.mask.extractLsb' 12 4 = 0xF#4 := by cases o <;> rfl
  have h' := congrArg (BitVec.extractLsb' 12 4) h
  rw [BitVec.extractLsb'_and, hm, show (0xF#4) = BitVec.allOnes 4 from rfl, BitVec.and_allOnes] at h'
  exact h'

/-- A word that matches a row decodes to that row's command (30_encoding.md R83). -/
theorem decode_of_match {w : Word} {o : Opcode} (h : w &&& o.mask = o.pattern) :
    decode w = .ok (instrOfFields o w) := by
  simp [decode, opcodeBits_of_match h, opcodeOfBits_pattern, h]

/-- A word that decodes matches the row of what it decodes to (30_encoding.md R88). -/
theorem decode_ok_cases {w : Word} {i : Instr} (h : decode w = .ok i) :
    ∃ o, w &&& Opcode.mask o = Opcode.pattern o ∧ i = instrOfFields o w := by
  unfold decode at h
  split at h
  · cases h
  · rename_i o _
    split at h
    · rename_i hm
      exact ⟨o, hm, by cases h; rfl⟩
    · cases h

end Sys2Proof
end

