-- ==== Sys2Proof/Laws/State.lean ====
section
/-!
SUPPORT. One lemma per field per named update of State, each true by unfolding the update once, so that no later proof
unfolds it.
-/

namespace Sys2Proof.Machine

/-! ### emit -/

@[simp] theorem State.emit_pair (s : State) (x : Strobe) : (s.emit x).pair = s.pair := rfl
@[simp] theorem State.emit_src (s : State) (x : Strobe) : (s.emit x).src = s.src := rfl
@[simp] theorem State.emit_view (s : State) (x : Strobe) : (s.emit x).view = s.view := rfl
@[simp] theorem State.emit_lastView (s : State) (x : Strobe) : (s.emit x).lastView = s.lastView := rfl
@[simp] theorem State.emit_blink (s : State) (x : Strobe) : (s.emit x).blink = s.blink := rfl
@[simp] theorem State.emit_setting (s : State) (x : Strobe) : (s.emit x).setting = s.setting := rfl
@[simp] theorem State.emit_phase (s : State) (x : Strobe) : (s.emit x).phase = s.phase := rfl
@[simp] theorem State.emit_bStage (s : State) (x : Strobe) : (s.emit x).bStage = s.bStage := rfl
@[simp] theorem State.emit_cathode (s : State) (x : Strobe) : (s.emit x).cathode = s.cathode := rfl
@[simp] theorem State.emit_anode (s : State) (x : Strobe) : (s.emit x).anode = s.anode := rfl
@[simp] theorem State.emit_pend (s : State) (x : Strobe) : (s.emit x).pend = s.pend := rfl
@[simp] theorem State.emit_ovr (s : State) (x : Strobe) : (s.emit x).ovr = s.ovr := rfl
@[simp] theorem State.emit_rolling (s : State) (x : Strobe) : (s.emit x).rolling = s.rolling := rfl
@[simp] theorem State.emit_overCount (s : State) (x : Strobe) : (s.emit x).overCount = s.overCount := rfl
@[simp] theorem State.emit_fault (s : State) (x : Strobe) : (s.emit x).fault = s.fault := rfl
@[simp] theorem State.emit_cause (s : State) (x : Strobe) : (s.emit x).cause = s.cause := rfl
@[simp] theorem State.emit_strobes (s : State) (x : Strobe) : (s.emit x).strobes = s.strobes ++ [x] := rfl
@[simp] theorem State.emit_rdata (s : State) (x : Strobe) : (s.emit x).rdata = s.rdata := rfl
@[simp] theorem State.emit_presented (s : State) (x : Strobe) : (s.emit x).presented = s.presented := rfl
@[simp] theorem State.emit_draws (s : State) (x : Strobe) : (s.emit x).draws = s.draws := rfl

/-! ### returnData -/

@[simp] theorem State.returnData_pair (s : State) (w : Word) : (s.returnData w).pair = s.pair := rfl
@[simp] theorem State.returnData_src (s : State) (w : Word) : (s.returnData w).src = s.src := rfl
@[simp] theorem State.returnData_view (s : State) (w : Word) : (s.returnData w).view = s.view := rfl
@[simp] theorem State.returnData_lastView (s : State) (w : Word) : (s.returnData w).lastView = s.lastView := rfl
@[simp] theorem State.returnData_blink (s : State) (w : Word) : (s.returnData w).blink = s.blink := rfl
@[simp] theorem State.returnData_setting (s : State) (w : Word) : (s.returnData w).setting = s.setting := rfl
@[simp] theorem State.returnData_phase (s : State) (w : Word) : (s.returnData w).phase = s.phase := rfl
@[simp] theorem State.returnData_bStage (s : State) (w : Word) : (s.returnData w).bStage = s.bStage := rfl
@[simp] theorem State.returnData_cathode (s : State) (w : Word) : (s.returnData w).cathode = s.cathode := rfl
@[simp] theorem State.returnData_anode (s : State) (w : Word) : (s.returnData w).anode = s.anode := rfl
@[simp] theorem State.returnData_pend (s : State) (w : Word) : (s.returnData w).pend = s.pend := rfl
@[simp] theorem State.returnData_ovr (s : State) (w : Word) : (s.returnData w).ovr = s.ovr := rfl
@[simp] theorem State.returnData_rolling (s : State) (w : Word) : (s.returnData w).rolling = s.rolling := rfl
@[simp] theorem State.returnData_overCount (s : State) (w : Word) : (s.returnData w).overCount = s.overCount := rfl
@[simp] theorem State.returnData_fault (s : State) (w : Word) : (s.returnData w).fault = s.fault := rfl
@[simp] theorem State.returnData_cause (s : State) (w : Word) : (s.returnData w).cause = s.cause := rfl
@[simp] theorem State.returnData_strobes (s : State) (w : Word) : (s.returnData w).strobes = s.strobes := rfl
@[simp] theorem State.returnData_rdata (s : State) (w : Word) : (s.returnData w).rdata = some w := rfl
@[simp] theorem State.returnData_presented (s : State) (w : Word) : (s.returnData w).presented = s.presented := rfl
@[simp] theorem State.returnData_draws (s : State) (w : Word) : (s.returnData w).draws = s.draws := rfl

/-! ### openPorts -/

@[simp] theorem State.openPorts_pair (s : State) : s.openPorts.pair = s.pair := rfl
@[simp] theorem State.openPorts_src (s : State) : s.openPorts.src = s.src := rfl
@[simp] theorem State.openPorts_view (s : State) : s.openPorts.view = s.view := rfl
@[simp] theorem State.openPorts_lastView (s : State) : s.openPorts.lastView = s.lastView := rfl
@[simp] theorem State.openPorts_blink (s : State) : s.openPorts.blink = s.blink := rfl
@[simp] theorem State.openPorts_setting (s : State) : s.openPorts.setting = s.setting := rfl
@[simp] theorem State.openPorts_phase (s : State) : s.openPorts.phase = s.phase := rfl
@[simp] theorem State.openPorts_bStage (s : State) : s.openPorts.bStage = s.bStage := rfl
@[simp] theorem State.openPorts_cathode (s : State) : s.openPorts.cathode = s.cathode := rfl
@[simp] theorem State.openPorts_anode (s : State) : s.openPorts.anode = s.anode := rfl
@[simp] theorem State.openPorts_pend (s : State) : s.openPorts.pend = s.pend := rfl
@[simp] theorem State.openPorts_ovr (s : State) : s.openPorts.ovr = s.ovr := rfl
@[simp] theorem State.openPorts_rolling (s : State) : s.openPorts.rolling = s.rolling := rfl
@[simp] theorem State.openPorts_overCount (s : State) : s.openPorts.overCount = s.overCount := rfl
@[simp] theorem State.openPorts_fault (s : State) : s.openPorts.fault = s.fault := rfl
@[simp] theorem State.openPorts_cause (s : State) : s.openPorts.cause = s.cause := rfl
@[simp] theorem State.openPorts_strobes (s : State) : s.openPorts.strobes = [] := rfl
@[simp] theorem State.openPorts_rdata (s : State) : s.openPorts.rdata = none := rfl
@[simp] theorem State.openPorts_presented (s : State) : s.openPorts.presented = s.presented := rfl
@[simp] theorem State.openPorts_draws (s : State) : s.openPorts.draws = s.draws := rfl

/-! ### setPair -/

@[simp] theorem State.setPair_pair (s : State) (p : Fin 3) (d : Byte) : (s.setPair p d).pair = s.pair.set p d := rfl
@[simp] theorem State.setPair_src (s : State) (p : Fin 3) (d : Byte) : (s.setPair p d).src = s.src := rfl
@[simp] theorem State.setPair_view (s : State) (p : Fin 3) (d : Byte) : (s.setPair p d).view = s.view := rfl
@[simp] theorem State.setPair_lastView (s : State) (p : Fin 3) (d : Byte) :
    (s.setPair p d).lastView = s.lastView := rfl
@[simp] theorem State.setPair_blink (s : State) (p : Fin 3) (d : Byte) : (s.setPair p d).blink = s.blink := rfl
@[simp] theorem State.setPair_setting (s : State) (p : Fin 3) (d : Byte) : (s.setPair p d).setting = s.setting := rfl
@[simp] theorem State.setPair_phase (s : State) (p : Fin 3) (d : Byte) : (s.setPair p d).phase = s.phase := rfl
@[simp] theorem State.setPair_bStage (s : State) (p : Fin 3) (d : Byte) : (s.setPair p d).bStage = s.bStage := rfl
@[simp] theorem State.setPair_cathode (s : State) (p : Fin 3) (d : Byte) : (s.setPair p d).cathode = s.cathode := rfl
@[simp] theorem State.setPair_anode (s : State) (p : Fin 3) (d : Byte) : (s.setPair p d).anode = s.anode := rfl
@[simp] theorem State.setPair_pend (s : State) (p : Fin 3) (d : Byte) : (s.setPair p d).pend = s.pend := rfl
@[simp] theorem State.setPair_ovr (s : State) (p : Fin 3) (d : Byte) : (s.setPair p d).ovr = s.ovr := rfl
@[simp] theorem State.setPair_rolling (s : State) (p : Fin 3) (d : Byte) : (s.setPair p d).rolling = s.rolling := rfl
@[simp] theorem State.setPair_overCount (s : State) (p : Fin 3) (d : Byte) :
    (s.setPair p d).overCount = s.overCount := rfl
@[simp] theorem State.setPair_fault (s : State) (p : Fin 3) (d : Byte) : (s.setPair p d).fault = s.fault := rfl
@[simp] theorem State.setPair_cause (s : State) (p : Fin 3) (d : Byte) : (s.setPair p d).cause = s.cause := rfl
@[simp] theorem State.setPair_strobes (s : State) (p : Fin 3) (d : Byte) : (s.setPair p d).strobes = s.strobes := rfl
@[simp] theorem State.setPair_rdata (s : State) (p : Fin 3) (d : Byte) : (s.setPair p d).rdata = s.rdata := rfl
@[simp] theorem State.setPair_presented (s : State) (p : Fin 3) (d : Byte) :
    (s.setPair p d).presented = s.presented := rfl
@[simp] theorem State.setPair_draws (s : State) (p : Fin 3) (d : Byte) : (s.setPair p d).draws = s.draws := rfl

/-! ### setSrc -/

@[simp] theorem State.setSrc_pair (s : State) (f : Fin 9) (n : Byte) : (s.setSrc f n).pair = s.pair := rfl
@[simp] theorem State.setSrc_src (s : State) (f : Fin 9) (n : Byte) : (s.setSrc f n).src = s.src.set f n := rfl
@[simp] theorem State.setSrc_view (s : State) (f : Fin 9) (n : Byte) : (s.setSrc f n).view = s.view := rfl
@[simp] theorem State.setSrc_lastView (s : State) (f : Fin 9) (n : Byte) : (s.setSrc f n).lastView = s.lastView := rfl
@[simp] theorem State.setSrc_blink (s : State) (f : Fin 9) (n : Byte) : (s.setSrc f n).blink = s.blink := rfl
@[simp] theorem State.setSrc_setting (s : State) (f : Fin 9) (n : Byte) : (s.setSrc f n).setting = s.setting := rfl
@[simp] theorem State.setSrc_phase (s : State) (f : Fin 9) (n : Byte) : (s.setSrc f n).phase = s.phase := rfl
@[simp] theorem State.setSrc_bStage (s : State) (f : Fin 9) (n : Byte) : (s.setSrc f n).bStage = s.bStage := rfl
@[simp] theorem State.setSrc_cathode (s : State) (f : Fin 9) (n : Byte) : (s.setSrc f n).cathode = s.cathode := rfl
@[simp] theorem State.setSrc_anode (s : State) (f : Fin 9) (n : Byte) : (s.setSrc f n).anode = s.anode := rfl
@[simp] theorem State.setSrc_pend (s : State) (f : Fin 9) (n : Byte) : (s.setSrc f n).pend = s.pend := rfl
@[simp] theorem State.setSrc_ovr (s : State) (f : Fin 9) (n : Byte) : (s.setSrc f n).ovr = s.ovr := rfl
@[simp] theorem State.setSrc_rolling (s : State) (f : Fin 9) (n : Byte) : (s.setSrc f n).rolling = s.rolling := rfl
@[simp] theorem State.setSrc_overCount (s : State) (f : Fin 9) (n : Byte) :
    (s.setSrc f n).overCount = s.overCount := rfl
@[simp] theorem State.setSrc_fault (s : State) (f : Fin 9) (n : Byte) : (s.setSrc f n).fault = s.fault := rfl
@[simp] theorem State.setSrc_cause (s : State) (f : Fin 9) (n : Byte) : (s.setSrc f n).cause = s.cause := rfl
@[simp] theorem State.setSrc_strobes (s : State) (f : Fin 9) (n : Byte) : (s.setSrc f n).strobes = s.strobes := rfl
@[simp] theorem State.setSrc_rdata (s : State) (f : Fin 9) (n : Byte) : (s.setSrc f n).rdata = s.rdata := rfl
@[simp] theorem State.setSrc_presented (s : State) (f : Fin 9) (n : Byte) :
    (s.setSrc f n).presented = s.presented := rfl
@[simp] theorem State.setSrc_draws (s : State) (f : Fin 9) (n : Byte) : (s.setSrc f n).draws = s.draws := rfl

/-! ### raise -/

@[simp] theorem State.raise_pair (s : State) (c : Cause) : (s.raise c).pair = s.pair := rfl
@[simp] theorem State.raise_src (s : State) (c : Cause) : (s.raise c).src = s.src := rfl
@[simp] theorem State.raise_view (s : State) (c : Cause) : (s.raise c).view = s.view := rfl
@[simp] theorem State.raise_lastView (s : State) (c : Cause) : (s.raise c).lastView = s.lastView := rfl
@[simp] theorem State.raise_blink (s : State) (c : Cause) : (s.raise c).blink = s.blink := rfl
@[simp] theorem State.raise_setting (s : State) (c : Cause) : (s.raise c).setting = s.setting := rfl
@[simp] theorem State.raise_phase (s : State) (c : Cause) : (s.raise c).phase = s.phase := rfl
@[simp] theorem State.raise_bStage (s : State) (c : Cause) : (s.raise c).bStage = s.bStage := rfl
@[simp] theorem State.raise_cathode (s : State) (c : Cause) : (s.raise c).cathode = s.cathode := rfl
@[simp] theorem State.raise_anode (s : State) (c : Cause) : (s.raise c).anode = s.anode := rfl
@[simp] theorem State.raise_pend (s : State) (c : Cause) : (s.raise c).pend = s.pend := rfl
@[simp] theorem State.raise_ovr (s : State) (c : Cause) : (s.raise c).ovr = s.ovr := rfl
@[simp] theorem State.raise_rolling (s : State) (c : Cause) : (s.raise c).rolling = s.rolling := rfl
@[simp] theorem State.raise_overCount (s : State) (c : Cause) : (s.raise c).overCount = s.overCount := rfl
@[simp] theorem State.raise_fault (s : State) (c : Cause) : (s.raise c).fault = true := rfl
@[simp] theorem State.raise_cause (s : State) (c : Cause) :
    (s.raise c).cause = causeAfterFault s.fault s.cause c := rfl
@[simp] theorem State.raise_strobes (s : State) (c : Cause) : (s.raise c).strobes = s.strobes := rfl
@[simp] theorem State.raise_rdata (s : State) (c : Cause) : (s.raise c).rdata = s.rdata := rfl
@[simp] theorem State.raise_presented (s : State) (c : Cause) : (s.raise c).presented = s.presented := rfl
@[simp] theorem State.raise_draws (s : State) (c : Cause) : (s.raise c).draws = s.draws := rfl

/-! ### clearStatus -/

@[simp] theorem State.clearStatus_pair (s : State) : s.clearStatus.pair = s.pair := rfl
@[simp] theorem State.clearStatus_src (s : State) : s.clearStatus.src = s.src := rfl
@[simp] theorem State.clearStatus_view (s : State) : s.clearStatus.view = s.view := rfl
@[simp] theorem State.clearStatus_lastView (s : State) : s.clearStatus.lastView = s.lastView := rfl
@[simp] theorem State.clearStatus_blink (s : State) : s.clearStatus.blink = s.blink := rfl
@[simp] theorem State.clearStatus_setting (s : State) : s.clearStatus.setting = s.setting := rfl
@[simp] theorem State.clearStatus_phase (s : State) : s.clearStatus.phase = s.phase := rfl
@[simp] theorem State.clearStatus_bStage (s : State) : s.clearStatus.bStage = s.bStage := rfl
@[simp] theorem State.clearStatus_cathode (s : State) : s.clearStatus.cathode = s.cathode := rfl
@[simp] theorem State.clearStatus_anode (s : State) : s.clearStatus.anode = s.anode := rfl
@[simp] theorem State.clearStatus_pend (s : State) : s.clearStatus.pend = s.pend := rfl
@[simp] theorem State.clearStatus_ovr (s : State) : s.clearStatus.ovr = 0 := rfl
@[simp] theorem State.clearStatus_rolling (s : State) : s.clearStatus.rolling = s.rolling := rfl
@[simp] theorem State.clearStatus_overCount (s : State) : s.clearStatus.overCount = s.overCount := rfl
@[simp] theorem State.clearStatus_fault (s : State) : s.clearStatus.fault = false := rfl
@[simp] theorem State.clearStatus_cause (s : State) : s.clearStatus.cause = .none := rfl
@[simp] theorem State.clearStatus_strobes (s : State) : s.clearStatus.strobes = s.strobes := rfl
@[simp] theorem State.clearStatus_rdata (s : State) : s.clearStatus.rdata = s.rdata := rfl
@[simp] theorem State.clearStatus_presented (s : State) : s.clearStatus.presented = s.presented := rfl
@[simp] theorem State.clearStatus_draws (s : State) : s.clearStatus.draws = s.draws := rfl

/-! ### clearPending -/

@[simp] theorem State.clearPending_pair (s : State) (snapshot : BitVec 4) :
    (s.clearPending snapshot).pair = s.pair := rfl
@[simp] theorem State.clearPending_src (s : State) (snapshot : BitVec 4) :
    (s.clearPending snapshot).src = s.src := rfl
@[simp] theorem State.clearPending_view (s : State) (snapshot : BitVec 4) :
    (s.clearPending snapshot).view = s.view := rfl
@[simp] theorem State.clearPending_lastView (s : State) (snapshot : BitVec 4) :
    (s.clearPending snapshot).lastView = s.lastView := rfl
@[simp] theorem State.clearPending_blink (s : State) (snapshot : BitVec 4) :
    (s.clearPending snapshot).blink = s.blink := rfl
@[simp] theorem State.clearPending_setting (s : State) (snapshot : BitVec 4) :
    (s.clearPending snapshot).setting = s.setting := rfl
@[simp] theorem State.clearPending_phase (s : State) (snapshot : BitVec 4) :
    (s.clearPending snapshot).phase = s.phase := rfl
@[simp] theorem State.clearPending_bStage (s : State) (snapshot : BitVec 4) :
    (s.clearPending snapshot).bStage = s.bStage := rfl
@[simp] theorem State.clearPending_cathode (s : State) (snapshot : BitVec 4) :
    (s.clearPending snapshot).cathode = s.cathode := rfl
@[simp] theorem State.clearPending_anode (s : State) (snapshot : BitVec 4) :
    (s.clearPending snapshot).anode = s.anode := rfl
@[simp] theorem State.clearPending_pend (s : State) (snapshot : BitVec 4) :
    (s.clearPending snapshot).pend = s.pend &&& ~~~snapshot := rfl
@[simp] theorem State.clearPending_ovr (s : State) (snapshot : BitVec 4) :
    (s.clearPending snapshot).ovr = s.ovr := rfl
@[simp] theorem State.clearPending_rolling (s : State) (snapshot : BitVec 4) :
    (s.clearPending snapshot).rolling = s.rolling := rfl
@[simp] theorem State.clearPending_overCount (s : State) (snapshot : BitVec 4) :
    (s.clearPending snapshot).overCount = s.overCount := rfl
@[simp] theorem State.clearPending_fault (s : State) (snapshot : BitVec 4) :
    (s.clearPending snapshot).fault = s.fault := rfl
@[simp] theorem State.clearPending_cause (s : State) (snapshot : BitVec 4) :
    (s.clearPending snapshot).cause = s.cause := rfl
@[simp] theorem State.clearPending_strobes (s : State) (snapshot : BitVec 4) :
    (s.clearPending snapshot).strobes = s.strobes := rfl
@[simp] theorem State.clearPending_rdata (s : State) (snapshot : BitVec 4) :
    (s.clearPending snapshot).rdata = s.rdata := rfl
@[simp] theorem State.clearPending_presented (s : State) (snapshot : BitVec 4) :
    (s.clearPending snapshot).presented = s.presented := rfl
@[simp] theorem State.clearPending_draws (s : State) (snapshot : BitVec 4) :
    (s.clearPending snapshot).draws = s.draws := rfl

/-! ### directCopy -/

@[simp] theorem State.directCopy_pair (s : State) : s.directCopy.pair = s.targets := rfl
@[simp] theorem State.directCopy_src (s : State) : s.directCopy.src = s.src := rfl
@[simp] theorem State.directCopy_view (s : State) : s.directCopy.view = s.view := rfl
@[simp] theorem State.directCopy_lastView (s : State) : s.directCopy.lastView = s.lastView := rfl
@[simp] theorem State.directCopy_blink (s : State) : s.directCopy.blink = s.blink := rfl
@[simp] theorem State.directCopy_setting (s : State) : s.directCopy.setting = s.setting := rfl
@[simp] theorem State.directCopy_phase (s : State) : s.directCopy.phase = s.phase := rfl
@[simp] theorem State.directCopy_bStage (s : State) : s.directCopy.bStage = s.bStage := rfl
@[simp] theorem State.directCopy_cathode (s : State) : s.directCopy.cathode = s.cathode := rfl
@[simp] theorem State.directCopy_anode (s : State) : s.directCopy.anode = s.anode := rfl
@[simp] theorem State.directCopy_pend (s : State) : s.directCopy.pend = s.pend := rfl
@[simp] theorem State.directCopy_ovr (s : State) : s.directCopy.ovr = s.ovr := rfl
@[simp] theorem State.directCopy_rolling (s : State) : s.directCopy.rolling = s.rolling := rfl
@[simp] theorem State.directCopy_overCount (s : State) : s.directCopy.overCount = s.overCount := rfl
@[simp] theorem State.directCopy_fault (s : State) : s.directCopy.fault = s.fault := rfl
@[simp] theorem State.directCopy_cause (s : State) : s.directCopy.cause = s.cause := rfl
@[simp] theorem State.directCopy_strobes (s : State) : s.directCopy.strobes = s.strobes := rfl
@[simp] theorem State.directCopy_rdata (s : State) : s.directCopy.rdata = s.rdata := rfl
@[simp] theorem State.directCopy_presented (s : State) : s.directCopy.presented = s.presented := rfl
@[simp] theorem State.directCopy_draws (s : State) : s.directCopy.draws = s.draws := rfl

/-! ### blankAndAdvance -/

@[simp] theorem State.blankAndAdvance_pair (s : State) : s.blankAndAdvance.pair = s.pair := rfl
@[simp] theorem State.blankAndAdvance_src (s : State) : s.blankAndAdvance.src = s.src := rfl
@[simp] theorem State.blankAndAdvance_view (s : State) : s.blankAndAdvance.view = s.view := rfl
@[simp] theorem State.blankAndAdvance_lastView (s : State) : s.blankAndAdvance.lastView = s.lastView := rfl
@[simp] theorem State.blankAndAdvance_blink (s : State) : s.blankAndAdvance.blink = s.blink := rfl
@[simp] theorem State.blankAndAdvance_setting (s : State) : s.blankAndAdvance.setting = s.setting := rfl
@[simp] theorem State.blankAndAdvance_phase (s : State) : s.blankAndAdvance.phase = nextPhase s.phase := rfl
@[simp] theorem State.blankAndAdvance_bStage (s : State) : s.blankAndAdvance.bStage = s.bStage := rfl
@[simp] theorem State.blankAndAdvance_cathode (s : State) : s.blankAndAdvance.cathode = 0 := rfl
@[simp] theorem State.blankAndAdvance_anode (s : State) : s.blankAndAdvance.anode = 0 := rfl
@[simp] theorem State.blankAndAdvance_pend (s : State) : s.blankAndAdvance.pend = s.pend := rfl
@[simp] theorem State.blankAndAdvance_ovr (s : State) : s.blankAndAdvance.ovr = s.ovr := rfl
@[simp] theorem State.blankAndAdvance_rolling (s : State) : s.blankAndAdvance.rolling = s.rolling := rfl
@[simp] theorem State.blankAndAdvance_overCount (s : State) : s.blankAndAdvance.overCount = s.overCount := rfl
@[simp] theorem State.blankAndAdvance_fault (s : State) : s.blankAndAdvance.fault = s.fault := rfl
@[simp] theorem State.blankAndAdvance_cause (s : State) : s.blankAndAdvance.cause = s.cause := rfl
@[simp] theorem State.blankAndAdvance_strobes (s : State) : s.blankAndAdvance.strobes = s.strobes := rfl
@[simp] theorem State.blankAndAdvance_rdata (s : State) : s.blankAndAdvance.rdata = s.rdata := rfl
@[simp] theorem State.blankAndAdvance_presented (s : State) : s.blankAndAdvance.presented = s.presented := rfl
@[simp] theorem State.blankAndAdvance_draws (s : State) : s.blankAndAdvance.draws = s.draws := rfl

/-! ### advanceRoll -/

@[simp] theorem State.advanceRoll_pair (s : State) : s.advanceRoll.pair = s.rolledPairs := rfl
@[simp] theorem State.advanceRoll_src (s : State) : s.advanceRoll.src = s.src := rfl
@[simp] theorem State.advanceRoll_view (s : State) : s.advanceRoll.view = s.view := rfl
@[simp] theorem State.advanceRoll_lastView (s : State) : s.advanceRoll.lastView = s.lastView := rfl
@[simp] theorem State.advanceRoll_blink (s : State) : s.advanceRoll.blink = s.blink := rfl
@[simp] theorem State.advanceRoll_setting (s : State) : s.advanceRoll.setting = s.setting := rfl
@[simp] theorem State.advanceRoll_phase (s : State) : s.advanceRoll.phase = s.phase := rfl
@[simp] theorem State.advanceRoll_bStage (s : State) : s.advanceRoll.bStage = s.bStage := rfl
@[simp] theorem State.advanceRoll_cathode (s : State) : s.advanceRoll.cathode = s.cathode := rfl
@[simp] theorem State.advanceRoll_anode (s : State) : s.advanceRoll.anode = s.anode := rfl
@[simp] theorem State.advanceRoll_pend (s : State) : s.advanceRoll.pend = s.pend := rfl
@[simp] theorem State.advanceRoll_ovr (s : State) : s.advanceRoll.ovr = s.ovr := rfl
@[simp] theorem State.advanceRoll_rolling (s : State) : s.advanceRoll.rolling = s.rolling := rfl
@[simp] theorem State.advanceRoll_overCount (s : State) : s.advanceRoll.overCount = overAfterStep s.overCount := rfl
@[simp] theorem State.advanceRoll_fault (s : State) : s.advanceRoll.fault = s.fault := rfl
@[simp] theorem State.advanceRoll_cause (s : State) : s.advanceRoll.cause = s.cause := rfl
@[simp] theorem State.advanceRoll_strobes (s : State) : s.advanceRoll.strobes = s.strobes := rfl
@[simp] theorem State.advanceRoll_rdata (s : State) : s.advanceRoll.rdata = s.rdata := rfl
@[simp] theorem State.advanceRoll_presented (s : State) : s.advanceRoll.presented = s.presented := rfl
@[simp] theorem State.advanceRoll_draws (s : State) : s.advanceRoll.draws = s.draws := rfl

/-! ### completeRoll -/

@[simp] theorem State.completeRoll_pair (s : State) : s.completeRoll.pair = s.pair := rfl
@[simp] theorem State.completeRoll_src (s : State) : s.completeRoll.src = s.src := rfl
@[simp] theorem State.completeRoll_view (s : State) : s.completeRoll.view = s.view := rfl
@[simp] theorem State.completeRoll_lastView (s : State) : s.completeRoll.lastView = s.view := rfl
@[simp] theorem State.completeRoll_blink (s : State) : s.completeRoll.blink = s.blink := rfl
@[simp] theorem State.completeRoll_setting (s : State) : s.completeRoll.setting = s.setting := rfl
@[simp] theorem State.completeRoll_phase (s : State) : s.completeRoll.phase = s.phase := rfl
@[simp] theorem State.completeRoll_bStage (s : State) : s.completeRoll.bStage = s.bStage := rfl
@[simp] theorem State.completeRoll_cathode (s : State) : s.completeRoll.cathode = s.cathode := rfl
@[simp] theorem State.completeRoll_anode (s : State) : s.completeRoll.anode = s.anode := rfl
@[simp] theorem State.completeRoll_pend (s : State) : s.completeRoll.pend = s.pend := rfl
@[simp] theorem State.completeRoll_ovr (s : State) : s.completeRoll.ovr = s.ovr := rfl
@[simp] theorem State.completeRoll_rolling (s : State) : s.completeRoll.rolling = false := rfl
@[simp] theorem State.completeRoll_overCount (s : State) : s.completeRoll.overCount = 0 := rfl
@[simp] theorem State.completeRoll_fault (s : State) : s.completeRoll.fault = s.fault := rfl
@[simp] theorem State.completeRoll_cause (s : State) : s.completeRoll.cause = s.cause := rfl
@[simp] theorem State.completeRoll_strobes (s : State) : s.completeRoll.strobes = s.strobes ++ [.rollDone] := rfl
@[simp] theorem State.completeRoll_rdata (s : State) : s.completeRoll.rdata = s.rdata := rfl
@[simp] theorem State.completeRoll_presented (s : State) : s.completeRoll.presented = s.presented := rfl
@[simp] theorem State.completeRoll_draws (s : State) : s.completeRoll.draws = s.draws := rfl

end Sys2Proof.Machine
end

