-- ==== Sys2Proof/Laws/Ops.lean ====
section
/-!
SUPPORT. One lemma per shared operation and handler that says everything it can do; later proofs cite it and do not
unfold the operation.
-/

namespace Sys2Proof.Machine

/-- `raise` is the effect of 60_exceptions.md R222 written out. -/
theorem State.raise_eq_faulted (s : State) (c : Cause) : s.raise c = s.faulted c := rfl

/-! ### Index fields -/

theorem pairOfIndex_cases (p : BitVec 2) :
    (p = 3 ∧ pairOfIndex p = none) ∨ ∃ q : Fin 3, q.val = p.toNat ∧ p ≠ 3 ∧ pairOfIndex p = some q := by
  revert p; decide

theorem viewOfCode_cases (v : BitVec 2) :
    (v = 3 ∧ viewOfCode v = none) ∨ ∃ w : View, w.code = v ∧ v ≠ 3 ∧ viewOfCode v = some w := by
  have h : v = 0 ∨ v = 1 ∨ v = 2 ∨ v = 3 := by revert v; decide
  obtain rfl | rfl | rfl | rfl := h
  · exact .inr ⟨.time, rfl, by decide, rfl⟩
  · exact .inr ⟨.date, rfl, by decide, rfl⟩
  · exact .inr ⟨.userData, rfl, by decide, rfl⟩
  · exact .inl ⟨rfl, rfl⟩

theorem fieldOfCode_cases (f : BitVec 4) :
    (9 ≤ f.toNat ∧ fieldOfCode f = none) ∨ ∃ g : Fin 9, g.val = f.toNat ∧ fieldOfCode f = some g := by
  unfold fieldOfCode
  split
  · exact .inr ⟨_, rfl, rfl⟩
  · exact .inl ⟨by omega, rfl⟩

/-! ### Flags -/

theorem pastFloor_iff (n : BitVec 5) : pastFloor n = true ↔ 9 < n.toNat := by simp [pastFloor]

theorem overAfterStep_toNat (n : BitVec 5) : (overAfterStep n).toNat = min (n.toNat + 1) 31 := by
  simp [overAfterStep]

theorem rollComplete_iff (n : BitVec 5) (pair targets : Vector Byte 3) :
    rollComplete n pair targets = true ↔ 9 < n.toNat ∧ pair = targets := by
  simp [rollComplete, pastFloor_iff]

/-! ### Handlers -/

/-- Everything the channel A handler can do (42_multiplexing.md R172). -/
theorem handleA_cases (s : State) :
    (s.blink = true ∧
      handleA s = { s with cathode := 0, anode := 0, phase := nextPhase s.phase, bStage := .idle }) ∨
    (s.blink = false ∧
      handleA s = { s with cathode := 0, anode := 0, phase := nextPhase s.phase, bStage := .cath,
                           strobes := s.strobes ++ [.armB] }) := by
  cases h : s.blink
  · exact .inr ⟨rfl, by simp [handleA, h, State.blankAndAdvance, State.emit]⟩
  · exact .inl ⟨rfl, by simp [handleA, h, State.blankAndAdvance]⟩

/-- Everything the channel B handler can do (42_multiplexing.md R173, R180). -/
theorem handleB_cases (s : State) :
    (s.blink = true ∧ handleB s = { s with bStage := .idle }) ∨
    (s.blink = false ∧ s.bStage = .idle ∧ handleB s = s) ∨
    (s.blink = false ∧ s.bStage = .cath ∧
      handleB s = { s with cathode := cathodePattern s.phaseDigit, bStage := .anode,
                           strobes := s.strobes ++ [.armB] }) ∨
    (s.blink = false ∧ s.bStage = .anode ∧
      handleB s = { s with anode := anodeLine s.phase, bStage := .idle }) := by
  cases h : s.blink
  · cases h' : s.bStage
    · exact .inr (.inl ⟨rfl, rfl, by simp [handleB, h, h']⟩)
    · exact .inr (.inr (.inl ⟨rfl, rfl, by simp [handleB, h, h', State.emit]⟩))
    · exact .inr (.inr (.inr ⟨rfl, rfl, by simp [handleB, h, h']⟩))
  · exact .inl ⟨rfl, by simp [handleB, h]⟩

/-- The channel C handler only emits (42_multiplexing.md R174). -/
theorem handleC_eq (s : State) : handleC s = { s with strobes := s.strobes ++ [.cTick] } := rfl

/-- Everything a roll step can do (41_animation.md R140, R142). -/
theorem handleD_cases (s : State) :
    ((s.setting = true ∨ s.rolling = false) ∧ handleD s = s) ∨
    (s.setting = false ∧ s.rolling = true ∧ 9 < (overAfterStep s.overCount).toNat ∧ s.rolledPairs = s.targets ∧
      handleD s = { s with pair := s.rolledPairs, overCount := 0, rolling := false, lastView := s.view,
                           strobes := s.strobes ++ [.rollDone] }) ∨
    (s.setting = false ∧ s.rolling = true ∧
      ¬(9 < (overAfterStep s.overCount).toNat ∧ s.rolledPairs = s.targets) ∧
      handleD s = { s with pair := s.rolledPairs, overCount := overAfterStep s.overCount }) := by
  cases hs : s.setting
  · cases hr : s.rolling
    · exact .inl ⟨.inr rfl, by simp [handleD, hs, hr]⟩
    · by_cases hc : rollComplete (overAfterStep s.overCount) s.rolledPairs s.targets = true
      · have hc' := (rollComplete_iff ..).1 hc
        exact .inr (.inl ⟨rfl, rfl, hc'.1, hc'.2, by
          simp [handleD, hs, hr, hc, State.completeRoll, State.advanceRoll, State.emit]⟩)
      · exact .inr (.inr ⟨rfl, rfl, fun h => hc ((rollComplete_iff ..).2 h), by
          simp [handleD, hs, hr, hc, State.advanceRoll]⟩)
  · exact .inl ⟨.inl rfl, by simp [handleD, hs]⟩

/-- A roll step turns or holds one nibble (41_animation.md R141), read on digits. -/
theorem rollNibble_toNat {n : Nibble} (h : n.toNat ≤ 9) (elapsed : BitVec 5) (t : Nibble) :
    (rollNibble elapsed n t).toNat =
      if 9 < elapsed.toNat ∧ n.toNat = t.toNat then n.toNat else (n.toNat + 1) % 10 := by
  by_cases hc : 9 < elapsed.toNat ∧ n.toNat = t.toNat
  · have : n = t := BitVec.eq_of_toNat_eq hc.2
    simp [rollNibble, pastFloor_iff, hc.1, this]
  · have : ¬(pastFloor elapsed = true ∧ n = t) := fun h' => hc ⟨(pastFloor_iff _).1 h'.1, by rw [h'.2]⟩
    simp [rollNibble, this, hc, inc10_toNat h]

theorem rollNibble_le {n : Nibble} (h : n.toNat ≤ 9) (elapsed : BitVec 5) (t : Nibble) :
    (rollNibble elapsed n t).toNat ≤ 9 := by
  rw [rollNibble_toNat h]
  split <;> omega

theorem rolledPairs_get (s : State) (p : Fin 3) :
    s.rolledPairs[p] = rollPair s.overCount s.pair[p] (s.target p) := by
  match p with
  | 0 => rfl
  | 1 => rfl
  | 2 => rfl

/-! ### DISPATCH -/

/-- Clearing exactly the flags that were read leaves none (42_multiplexing.md R171). -/
@[simp] theorem clearPending_self (s : State) : s.clearPending s.pend = { s with pend := 0 } := by
  simp [State.clearPending]

/-- A channel is serviced or passed over. -/
theorem service_eq (snapshot : BitVec 4) (ch : Channel) (s : State) :
    service snapshot ch s = if channelSet snapshot ch then handler ch s else s := rfl

theorem service_of_set {snapshot : BitVec 4} {ch : Channel} (h : channelSet snapshot ch = true) (s : State) :
    service snapshot ch s = handler ch s := by simp [service_eq, h]

theorem service_of_not_set {snapshot : BitVec 4} {ch : Channel} (h : channelSet snapshot ch = false) (s : State) :
    service snapshot ch s = s := by simp [service_eq, h]

/-- DISPATCH is the four services in order on the cleared state (42_multiplexing.md R171). -/
theorem execDispatch_eq (s : State) : execDispatch s = .next (serviceAll s.pend { s with pend := 0 }) := by
  simp [execDispatch]

/-! ### Commands that check an operand -/

/-- Everything TICK can do (40_display_buffer.md R110). -/
theorem execTick_cases (s : State) :
    (s.setting = true ∧ execTick s = .next s) ∨
    (s.setting = false ∧ s.view ≠ s.lastView ∧ s.rolling = false ∧
      execTick s = .next { s with lastView := s.view, rolling := true, overCount := 0 }) ∨
    (s.setting = false ∧ s.view ≠ s.lastView ∧ s.rolling = true ∧
      execTick s = .next { s with lastView := s.view }) ∨
    (s.setting = false ∧ s.view = s.lastView ∧ s.rolling = true ∧ execTick s = .next s) ∨
    (s.setting = false ∧ s.view = s.lastView ∧ s.rolling = false ∧
      execTick s = .next { s with pair := s.targets }) := by
  cases hs : s.setting
  · by_cases hv : s.view = s.lastView
    · cases hr : s.rolling
      · exact .inr (.inr (.inr (.inr ⟨rfl, hv, rfl, by simp [execTick, hs, hv, hr, State.directCopy]⟩)))
      · exact .inr (.inr (.inr (.inl ⟨rfl, hv, rfl, by simp [execTick, hs, hv, hr]⟩)))
    · cases hr : s.rolling
      · exact .inr (.inl ⟨rfl, hv, rfl, by simp [execTick, hs, hv, hr, State.noteViewChange, State.rollArm]⟩)
      · exact .inr (.inr (.inl ⟨rfl, hv, rfl, by
          simp [execTick, hs, hv, hr, State.noteViewChange, State.rollArm]⟩))
  · exact .inl ⟨rfl, by simp [execTick, hs]⟩

/-- Everything WPAIR can do (40_display_buffer.md R112). -/
theorem execWpair_cases (p : BitVec 2) (d : Byte) (s : State) :
    (p = 3 ∧ execWpair p d s = .next (s.raise .badPair)) ∨
    (p ≠ 3 ∧ isBCD d = false ∧ execWpair p d s = .next (s.raise .badBcd)) ∨
    ∃ q : Fin 3, q.val = p.toNat ∧ p ≠ 3 ∧ isBCD d = true ∧ execWpair p d s = .next (s.setPair q d) := by
  obtain ⟨hp, h⟩ | ⟨q, hq, hp, h⟩ := pairOfIndex_cases p
  · exact .inl ⟨hp, by simp [execWpair, h]⟩
  · cases hd : isBCD d
    · exact .inr (.inl ⟨hp, rfl, by simp [execWpair, h, hd]⟩)
    · exact .inr (.inr ⟨q, hq, hp, rfl, by simp [execWpair, h, hd]⟩)

/-- Everything SETVIEW can do (40_display_buffer.md R113). -/
theorem execSetview_cases (v : BitVec 2) (s : State) :
    (v = 3 ∧ execSetview v s = .next (s.raise .badView)) ∨
    ∃ w : View, w.code = v ∧ v ≠ 3 ∧ execSetview v s = .next { s with view := w } := by
  obtain ⟨hv, h⟩ | ⟨w, hw, hv, h⟩ := viewOfCode_cases v
  · exact .inl ⟨hv, by simp [execSetview, h]⟩
  · exact .inr ⟨w, hw, hv, by simp [execSetview, h]⟩

/-- Everything LDSRC can do (40_display_buffer.md R114). -/
theorem execLdsrc_cases (f : BitVec 4) (n : Byte) (s : State) :
    (9 ≤ f.toNat ∧ execLdsrc f n s = .next (s.raise .badField)) ∨
    (f.toNat < 9 ∧ 99 < n.toNat ∧ execLdsrc f n s = .next (s.raise .range)) ∨
    ∃ g : Fin 9, g.val = f.toNat ∧ n.toNat ≤ 99 ∧ execLdsrc f n s = .next (s.setSrc g n) := by
  obtain ⟨hf, h⟩ | ⟨g, hg, h⟩ := fieldOfCode_cases f
  · exact .inl ⟨hf, by simp [execLdsrc, h]⟩
  · by_cases hn : n.toNat ≤ 99
    · exact .inr (.inr ⟨g, hg, hn, by simp [execLdsrc, h, hn]⟩)
    · exact .inr (.inl ⟨by omega, by omega, by simp [execLdsrc, h, hn]⟩)

/-! ### Inputs -/

@[simp] theorem nextInput_of_presented {s : State} {i : Input} {rest : List Input} (h : s.presented = i :: rest) :
    s.nextInput = i := by simp [State.nextInput, h]

/-- What performing begins with when an input is listed. -/
theorem consumed_of_presented {s : State} {i : Input} {rest : List Input} (h : s.presented = i :: rest) :
    s.consumed = { s with presented := rest, strobes := [], rdata := none } := by
  simp [State.consumed, h, State.openPorts]

/-- What performing begins with when none is listed. -/
theorem consumed_of_unlisted {s : State} (h : s.presented = []) :
    s.consumed = { s with draws := s.draws + 1, strobes := [], rdata := none } := by
  simp [State.consumed, h, State.openPorts]

/-- Performing a word: its command, or ILLEGAL_CMD (30_encoding.md R88). -/
theorem performWord_cases (w : Word) (s : State) :
    (∃ i, decode w = .ok i ∧ performWord w s = exec i s) ∨
    ((∃ reason, decode w = .error reason) ∧ performWord w s = .next (s.raise .illegalCmd)) := by
  cases h : decode w with
  | ok i => exact .inl ⟨i, rfl, by simp [performWord, h]⟩
  | error e => exact .inr ⟨⟨e, rfl⟩, by simp [performWord, h]⟩

end Sys2Proof.Machine
end

