-- ==== Sys2Proof/Laws/Frames.lean ====
section
/-!
SUPPORT. The frames of the four channel handlers and of servicing a channel: every field a handler does not write is as it
was (42_multiplexing.md R172 to R174, 41_animation.md R140). One lemma per field, and the meanings behind `exec`.
-/

namespace Sys2Proof.Machine

/-! ### Channel A -/

@[simp] theorem handleA_pair (s : State) : (handleA s).pair = s.pair := by
  rcases handleA_cases s with ⟨-, h⟩ | ⟨-, h⟩ <;> rw [h]

@[simp] theorem handleA_src (s : State) : (handleA s).src = s.src := by
  rcases handleA_cases s with ⟨-, h⟩ | ⟨-, h⟩ <;> rw [h]

@[simp] theorem handleA_view (s : State) : (handleA s).view = s.view := by
  rcases handleA_cases s with ⟨-, h⟩ | ⟨-, h⟩ <;> rw [h]

@[simp] theorem handleA_lastView (s : State) : (handleA s).lastView = s.lastView := by
  rcases handleA_cases s with ⟨-, h⟩ | ⟨-, h⟩ <;> rw [h]

@[simp] theorem handleA_blink (s : State) : (handleA s).blink = s.blink := by
  rcases handleA_cases s with ⟨-, h⟩ | ⟨-, h⟩ <;> rw [h]

@[simp] theorem handleA_setting (s : State) : (handleA s).setting = s.setting := by
  rcases handleA_cases s with ⟨-, h⟩ | ⟨-, h⟩ <;> rw [h]

@[simp] theorem handleA_pend (s : State) : (handleA s).pend = s.pend := by
  rcases handleA_cases s with ⟨-, h⟩ | ⟨-, h⟩ <;> rw [h]

@[simp] theorem handleA_ovr (s : State) : (handleA s).ovr = s.ovr := by
  rcases handleA_cases s with ⟨-, h⟩ | ⟨-, h⟩ <;> rw [h]

@[simp] theorem handleA_rolling (s : State) : (handleA s).rolling = s.rolling := by
  rcases handleA_cases s with ⟨-, h⟩ | ⟨-, h⟩ <;> rw [h]

@[simp] theorem handleA_overCount (s : State) : (handleA s).overCount = s.overCount := by
  rcases handleA_cases s with ⟨-, h⟩ | ⟨-, h⟩ <;> rw [h]

@[simp] theorem handleA_fault (s : State) : (handleA s).fault = s.fault := by
  rcases handleA_cases s with ⟨-, h⟩ | ⟨-, h⟩ <;> rw [h]

@[simp] theorem handleA_cause (s : State) : (handleA s).cause = s.cause := by
  rcases handleA_cases s with ⟨-, h⟩ | ⟨-, h⟩ <;> rw [h]

@[simp] theorem handleA_rdata (s : State) : (handleA s).rdata = s.rdata := by
  rcases handleA_cases s with ⟨-, h⟩ | ⟨-, h⟩ <;> rw [h]

@[simp] theorem handleA_presented (s : State) : (handleA s).presented = s.presented := by
  rcases handleA_cases s with ⟨-, h⟩ | ⟨-, h⟩ <;> rw [h]

@[simp] theorem handleA_draws (s : State) : (handleA s).draws = s.draws := by
  rcases handleA_cases s with ⟨-, h⟩ | ⟨-, h⟩ <;> rw [h]

@[simp] theorem service_a_pair (snapshot : BitVec 4) (s : State) :
    (service snapshot .a s).pair = s.pair := by rw [service_eq]; split <;> simp [handler]

@[simp] theorem service_a_src (snapshot : BitVec 4) (s : State) :
    (service snapshot .a s).src = s.src := by rw [service_eq]; split <;> simp [handler]

@[simp] theorem service_a_view (snapshot : BitVec 4) (s : State) :
    (service snapshot .a s).view = s.view := by rw [service_eq]; split <;> simp [handler]

@[simp] theorem service_a_lastView (snapshot : BitVec 4) (s : State) :
    (service snapshot .a s).lastView = s.lastView := by rw [service_eq]; split <;> simp [handler]

@[simp] theorem service_a_blink (snapshot : BitVec 4) (s : State) :
    (service snapshot .a s).blink = s.blink := by rw [service_eq]; split <;> simp [handler]

@[simp] theorem service_a_setting (snapshot : BitVec 4) (s : State) :
    (service snapshot .a s).setting = s.setting := by rw [service_eq]; split <;> simp [handler]

@[simp] theorem service_a_pend (snapshot : BitVec 4) (s : State) :
    (service snapshot .a s).pend = s.pend := by rw [service_eq]; split <;> simp [handler]

@[simp] theorem service_a_ovr (snapshot : BitVec 4) (s : State) :
    (service snapshot .a s).ovr = s.ovr := by rw [service_eq]; split <;> simp [handler]

@[simp] theorem service_a_rolling (snapshot : BitVec 4) (s : State) :
    (service snapshot .a s).rolling = s.rolling := by rw [service_eq]; split <;> simp [handler]

@[simp] theorem service_a_overCount (snapshot : BitVec 4) (s : State) :
    (service snapshot .a s).overCount = s.overCount := by rw [service_eq]; split <;> simp [handler]

@[simp] theorem service_a_fault (snapshot : BitVec 4) (s : State) :
    (service snapshot .a s).fault = s.fault := by rw [service_eq]; split <;> simp [handler]

@[simp] theorem service_a_cause (snapshot : BitVec 4) (s : State) :
    (service snapshot .a s).cause = s.cause := by rw [service_eq]; split <;> simp [handler]

@[simp] theorem service_a_rdata (snapshot : BitVec 4) (s : State) :
    (service snapshot .a s).rdata = s.rdata := by rw [service_eq]; split <;> simp [handler]

@[simp] theorem service_a_presented (snapshot : BitVec 4) (s : State) :
    (service snapshot .a s).presented = s.presented := by rw [service_eq]; split <;> simp [handler]

@[simp] theorem service_a_draws (snapshot : BitVec 4) (s : State) :
    (service snapshot .a s).draws = s.draws := by rw [service_eq]; split <;> simp [handler]

/-! ### Channel B -/

@[simp] theorem handleB_pair (s : State) : (handleB s).pair = s.pair := by
  rcases handleB_cases s with ⟨-, h⟩ | ⟨-, -, h⟩ | ⟨-, -, h⟩ | ⟨-, -, h⟩ <;> rw [h]

@[simp] theorem handleB_src (s : State) : (handleB s).src = s.src := by
  rcases handleB_cases s with ⟨-, h⟩ | ⟨-, -, h⟩ | ⟨-, -, h⟩ | ⟨-, -, h⟩ <;> rw [h]

@[simp] theorem handleB_view (s : State) : (handleB s).view = s.view := by
  rcases handleB_cases s with ⟨-, h⟩ | ⟨-, -, h⟩ | ⟨-, -, h⟩ | ⟨-, -, h⟩ <;> rw [h]

@[simp] theorem handleB_lastView (s : State) : (handleB s).lastView = s.lastView := by
  rcases handleB_cases s with ⟨-, h⟩ | ⟨-, -, h⟩ | ⟨-, -, h⟩ | ⟨-, -, h⟩ <;> rw [h]

@[simp] theorem handleB_blink (s : State) : (handleB s).blink = s.blink := by
  rcases handleB_cases s with ⟨-, h⟩ | ⟨-, -, h⟩ | ⟨-, -, h⟩ | ⟨-, -, h⟩ <;> rw [h]

@[simp] theorem handleB_setting (s : State) : (handleB s).setting = s.setting := by
  rcases handleB_cases s with ⟨-, h⟩ | ⟨-, -, h⟩ | ⟨-, -, h⟩ | ⟨-, -, h⟩ <;> rw [h]

@[simp] theorem handleB_phase (s : State) : (handleB s).phase = s.phase := by
  rcases handleB_cases s with ⟨-, h⟩ | ⟨-, -, h⟩ | ⟨-, -, h⟩ | ⟨-, -, h⟩ <;> rw [h]

@[simp] theorem handleB_pend (s : State) : (handleB s).pend = s.pend := by
  rcases handleB_cases s with ⟨-, h⟩ | ⟨-, -, h⟩ | ⟨-, -, h⟩ | ⟨-, -, h⟩ <;> rw [h]

@[simp] theorem handleB_ovr (s : State) : (handleB s).ovr = s.ovr := by
  rcases handleB_cases s with ⟨-, h⟩ | ⟨-, -, h⟩ | ⟨-, -, h⟩ | ⟨-, -, h⟩ <;> rw [h]

@[simp] theorem handleB_rolling (s : State) : (handleB s).rolling = s.rolling := by
  rcases handleB_cases s with ⟨-, h⟩ | ⟨-, -, h⟩ | ⟨-, -, h⟩ | ⟨-, -, h⟩ <;> rw [h]

@[simp] theorem handleB_overCount (s : State) : (handleB s).overCount = s.overCount := by
  rcases handleB_cases s with ⟨-, h⟩ | ⟨-, -, h⟩ | ⟨-, -, h⟩ | ⟨-, -, h⟩ <;> rw [h]

@[simp] theorem handleB_fault (s : State) : (handleB s).fault = s.fault := by
  rcases handleB_cases s with ⟨-, h⟩ | ⟨-, -, h⟩ | ⟨-, -, h⟩ | ⟨-, -, h⟩ <;> rw [h]

@[simp] theorem handleB_cause (s : State) : (handleB s).cause = s.cause := by
  rcases handleB_cases s with ⟨-, h⟩ | ⟨-, -, h⟩ | ⟨-, -, h⟩ | ⟨-, -, h⟩ <;> rw [h]

@[simp] theorem handleB_rdata (s : State) : (handleB s).rdata = s.rdata := by
  rcases handleB_cases s with ⟨-, h⟩ | ⟨-, -, h⟩ | ⟨-, -, h⟩ | ⟨-, -, h⟩ <;> rw [h]

@[simp] theorem handleB_presented (s : State) : (handleB s).presented = s.presented := by
  rcases handleB_cases s with ⟨-, h⟩ | ⟨-, -, h⟩ | ⟨-, -, h⟩ | ⟨-, -, h⟩ <;> rw [h]

@[simp] theorem handleB_draws (s : State) : (handleB s).draws = s.draws := by
  rcases handleB_cases s with ⟨-, h⟩ | ⟨-, -, h⟩ | ⟨-, -, h⟩ | ⟨-, -, h⟩ <;> rw [h]

@[simp] theorem service_b_pair (snapshot : BitVec 4) (s : State) :
    (service snapshot .b s).pair = s.pair := by rw [service_eq]; split <;> simp [handler]

@[simp] theorem service_b_src (snapshot : BitVec 4) (s : State) :
    (service snapshot .b s).src = s.src := by rw [service_eq]; split <;> simp [handler]

@[simp] theorem service_b_view (snapshot : BitVec 4) (s : State) :
    (service snapshot .b s).view = s.view := by rw [service_eq]; split <;> simp [handler]

@[simp] theorem service_b_lastView (snapshot : BitVec 4) (s : State) :
    (service snapshot .b s).lastView = s.lastView := by rw [service_eq]; split <;> simp [handler]

@[simp] theorem service_b_blink (snapshot : BitVec 4) (s : State) :
    (service snapshot .b s).blink = s.blink := by rw [service_eq]; split <;> simp [handler]

@[simp] theorem service_b_setting (snapshot : BitVec 4) (s : State) :
    (service snapshot .b s).setting = s.setting := by rw [service_eq]; split <;> simp [handler]

@[simp] theorem service_b_phase (snapshot : BitVec 4) (s : State) :
    (service snapshot .b s).phase = s.phase := by rw [service_eq]; split <;> simp [handler]

@[simp] theorem service_b_pend (snapshot : BitVec 4) (s : State) :
    (service snapshot .b s).pend = s.pend := by rw [service_eq]; split <;> simp [handler]

@[simp] theorem service_b_ovr (snapshot : BitVec 4) (s : State) :
    (service snapshot .b s).ovr = s.ovr := by rw [service_eq]; split <;> simp [handler]

@[simp] theorem service_b_rolling (snapshot : BitVec 4) (s : State) :
    (service snapshot .b s).rolling = s.rolling := by rw [service_eq]; split <;> simp [handler]

@[simp] theorem service_b_overCount (snapshot : BitVec 4) (s : State) :
    (service snapshot .b s).overCount = s.overCount := by rw [service_eq]; split <;> simp [handler]

@[simp] theorem service_b_fault (snapshot : BitVec 4) (s : State) :
    (service snapshot .b s).fault = s.fault := by rw [service_eq]; split <;> simp [handler]

@[simp] theorem service_b_cause (snapshot : BitVec 4) (s : State) :
    (service snapshot .b s).cause = s.cause := by rw [service_eq]; split <;> simp [handler]

@[simp] theorem service_b_rdata (snapshot : BitVec 4) (s : State) :
    (service snapshot .b s).rdata = s.rdata := by rw [service_eq]; split <;> simp [handler]

@[simp] theorem service_b_presented (snapshot : BitVec 4) (s : State) :
    (service snapshot .b s).presented = s.presented := by rw [service_eq]; split <;> simp [handler]

@[simp] theorem service_b_draws (snapshot : BitVec 4) (s : State) :
    (service snapshot .b s).draws = s.draws := by rw [service_eq]; split <;> simp [handler]

/-! ### Channel C -/

@[simp] theorem handleC_pair (s : State) : (handleC s).pair = s.pair := rfl

@[simp] theorem handleC_src (s : State) : (handleC s).src = s.src := rfl

@[simp] theorem handleC_view (s : State) : (handleC s).view = s.view := rfl

@[simp] theorem handleC_lastView (s : State) : (handleC s).lastView = s.lastView := rfl

@[simp] theorem handleC_blink (s : State) : (handleC s).blink = s.blink := rfl

@[simp] theorem handleC_setting (s : State) : (handleC s).setting = s.setting := rfl

@[simp] theorem handleC_phase (s : State) : (handleC s).phase = s.phase := rfl

@[simp] theorem handleC_bStage (s : State) : (handleC s).bStage = s.bStage := rfl

@[simp] theorem handleC_cathode (s : State) : (handleC s).cathode = s.cathode := rfl

@[simp] theorem handleC_anode (s : State) : (handleC s).anode = s.anode := rfl

@[simp] theorem handleC_pend (s : State) : (handleC s).pend = s.pend := rfl

@[simp] theorem handleC_ovr (s : State) : (handleC s).ovr = s.ovr := rfl

@[simp] theorem handleC_rolling (s : State) : (handleC s).rolling = s.rolling := rfl

@[simp] theorem handleC_overCount (s : State) : (handleC s).overCount = s.overCount := rfl

@[simp] theorem handleC_fault (s : State) : (handleC s).fault = s.fault := rfl

@[simp] theorem handleC_cause (s : State) : (handleC s).cause = s.cause := rfl

@[simp] theorem handleC_rdata (s : State) : (handleC s).rdata = s.rdata := rfl

@[simp] theorem handleC_presented (s : State) : (handleC s).presented = s.presented := rfl

@[simp] theorem handleC_draws (s : State) : (handleC s).draws = s.draws := rfl

@[simp] theorem service_c_pair (snapshot : BitVec 4) (s : State) :
    (service snapshot .c s).pair = s.pair := by rw [service_eq]; split <;> simp [handler]

@[simp] theorem service_c_src (snapshot : BitVec 4) (s : State) :
    (service snapshot .c s).src = s.src := by rw [service_eq]; split <;> simp [handler]

@[simp] theorem service_c_view (snapshot : BitVec 4) (s : State) :
    (service snapshot .c s).view = s.view := by rw [service_eq]; split <;> simp [handler]

@[simp] theorem service_c_lastView (snapshot : BitVec 4) (s : State) :
    (service snapshot .c s).lastView = s.lastView := by rw [service_eq]; split <;> simp [handler]

@[simp] theorem service_c_blink (snapshot : BitVec 4) (s : State) :
    (service snapshot .c s).blink = s.blink := by rw [service_eq]; split <;> simp [handler]

@[simp] theorem service_c_setting (snapshot : BitVec 4) (s : State) :
    (service snapshot .c s).setting = s.setting := by rw [service_eq]; split <;> simp [handler]

@[simp] theorem service_c_phase (snapshot : BitVec 4) (s : State) :
    (service snapshot .c s).phase = s.phase := by rw [service_eq]; split <;> simp [handler]

@[simp] theorem service_c_bStage (snapshot : BitVec 4) (s : State) :
    (service snapshot .c s).bStage = s.bStage := by rw [service_eq]; split <;> simp [handler]

@[simp] theorem service_c_cathode (snapshot : BitVec 4) (s : State) :
    (service snapshot .c s).cathode = s.cathode := by rw [service_eq]; split <;> simp [handler]

@[simp] theorem service_c_anode (snapshot : BitVec 4) (s : State) :
    (service snapshot .c s).anode = s.anode := by rw [service_eq]; split <;> simp [handler]

@[simp] theorem service_c_pend (snapshot : BitVec 4) (s : State) :
    (service snapshot .c s).pend = s.pend := by rw [service_eq]; split <;> simp [handler]

@[simp] theorem service_c_ovr (snapshot : BitVec 4) (s : State) :
    (service snapshot .c s).ovr = s.ovr := by rw [service_eq]; split <;> simp [handler]

@[simp] theorem service_c_rolling (snapshot : BitVec 4) (s : State) :
    (service snapshot .c s).rolling = s.rolling := by rw [service_eq]; split <;> simp [handler]

@[simp] theorem service_c_overCount (snapshot : BitVec 4) (s : State) :
    (service snapshot .c s).overCount = s.overCount := by rw [service_eq]; split <;> simp [handler]

@[simp] theorem service_c_fault (snapshot : BitVec 4) (s : State) :
    (service snapshot .c s).fault = s.fault := by rw [service_eq]; split <;> simp [handler]

@[simp] theorem service_c_cause (snapshot : BitVec 4) (s : State) :
    (service snapshot .c s).cause = s.cause := by rw [service_eq]; split <;> simp [handler]

@[simp] theorem service_c_rdata (snapshot : BitVec 4) (s : State) :
    (service snapshot .c s).rdata = s.rdata := by rw [service_eq]; split <;> simp [handler]

@[simp] theorem service_c_presented (snapshot : BitVec 4) (s : State) :
    (service snapshot .c s).presented = s.presented := by rw [service_eq]; split <;> simp [handler]

@[simp] theorem service_c_draws (snapshot : BitVec 4) (s : State) :
    (service snapshot .c s).draws = s.draws := by rw [service_eq]; split <;> simp [handler]

/-! ### Channel D -/

@[simp] theorem handleD_src (s : State) : (handleD s).src = s.src := by
  rcases handleD_cases s with ⟨-, h⟩ | ⟨-, -, -, -, h⟩ | ⟨-, -, -, h⟩ <;> rw [h]

@[simp] theorem handleD_view (s : State) : (handleD s).view = s.view := by
  rcases handleD_cases s with ⟨-, h⟩ | ⟨-, -, -, -, h⟩ | ⟨-, -, -, h⟩ <;> rw [h]

@[simp] theorem handleD_blink (s : State) : (handleD s).blink = s.blink := by
  rcases handleD_cases s with ⟨-, h⟩ | ⟨-, -, -, -, h⟩ | ⟨-, -, -, h⟩ <;> rw [h]

@[simp] theorem handleD_setting (s : State) : (handleD s).setting = s.setting := by
  rcases handleD_cases s with ⟨-, h⟩ | ⟨-, -, -, -, h⟩ | ⟨-, -, -, h⟩ <;> rw [h]

@[simp] theorem handleD_phase (s : State) : (handleD s).phase = s.phase := by
  rcases handleD_cases s with ⟨-, h⟩ | ⟨-, -, -, -, h⟩ | ⟨-, -, -, h⟩ <;> rw [h]

@[simp] theorem handleD_bStage (s : State) : (handleD s).bStage = s.bStage := by
  rcases handleD_cases s with ⟨-, h⟩ | ⟨-, -, -, -, h⟩ | ⟨-, -, -, h⟩ <;> rw [h]

@[simp] theorem handleD_cathode (s : State) : (handleD s).cathode = s.cathode := by
  rcases handleD_cases s with ⟨-, h⟩ | ⟨-, -, -, -, h⟩ | ⟨-, -, -, h⟩ <;> rw [h]

@[simp] theorem handleD_anode (s : State) : (handleD s).anode = s.anode := by
  rcases handleD_cases s with ⟨-, h⟩ | ⟨-, -, -, -, h⟩ | ⟨-, -, -, h⟩ <;> rw [h]

@[simp] theorem handleD_pend (s : State) : (handleD s).pend = s.pend := by
  rcases handleD_cases s with ⟨-, h⟩ | ⟨-, -, -, -, h⟩ | ⟨-, -, -, h⟩ <;> rw [h]

@[simp] theorem handleD_ovr (s : State) : (handleD s).ovr = s.ovr := by
  rcases handleD_cases s with ⟨-, h⟩ | ⟨-, -, -, -, h⟩ | ⟨-, -, -, h⟩ <;> rw [h]

@[simp] theorem handleD_fault (s : State) : (handleD s).fault = s.fault := by
  rcases handleD_cases s with ⟨-, h⟩ | ⟨-, -, -, -, h⟩ | ⟨-, -, -, h⟩ <;> rw [h]

@[simp] theorem handleD_cause (s : State) : (handleD s).cause = s.cause := by
  rcases handleD_cases s with ⟨-, h⟩ | ⟨-, -, -, -, h⟩ | ⟨-, -, -, h⟩ <;> rw [h]

@[simp] theorem handleD_rdata (s : State) : (handleD s).rdata = s.rdata := by
  rcases handleD_cases s with ⟨-, h⟩ | ⟨-, -, -, -, h⟩ | ⟨-, -, -, h⟩ <;> rw [h]

@[simp] theorem handleD_presented (s : State) : (handleD s).presented = s.presented := by
  rcases handleD_cases s with ⟨-, h⟩ | ⟨-, -, -, -, h⟩ | ⟨-, -, -, h⟩ <;> rw [h]

@[simp] theorem handleD_draws (s : State) : (handleD s).draws = s.draws := by
  rcases handleD_cases s with ⟨-, h⟩ | ⟨-, -, -, -, h⟩ | ⟨-, -, -, h⟩ <;> rw [h]

@[simp] theorem service_d_src (snapshot : BitVec 4) (s : State) :
    (service snapshot .d s).src = s.src := by rw [service_eq]; split <;> simp [handler]

@[simp] theorem service_d_view (snapshot : BitVec 4) (s : State) :
    (service snapshot .d s).view = s.view := by rw [service_eq]; split <;> simp [handler]

@[simp] theorem service_d_blink (snapshot : BitVec 4) (s : State) :
    (service snapshot .d s).blink = s.blink := by rw [service_eq]; split <;> simp [handler]

@[simp] theorem service_d_setting (snapshot : BitVec 4) (s : State) :
    (service snapshot .d s).setting = s.setting := by rw [service_eq]; split <;> simp [handler]

@[simp] theorem service_d_phase (snapshot : BitVec 4) (s : State) :
    (service snapshot .d s).phase = s.phase := by rw [service_eq]; split <;> simp [handler]

@[simp] theorem service_d_bStage (snapshot : BitVec 4) (s : State) :
    (service snapshot .d s).bStage = s.bStage := by rw [service_eq]; split <;> simp [handler]

@[simp] theorem service_d_cathode (snapshot : BitVec 4) (s : State) :
    (service snapshot .d s).cathode = s.cathode := by rw [service_eq]; split <;> simp [handler]

@[simp] theorem service_d_anode (snapshot : BitVec 4) (s : State) :
    (service snapshot .d s).anode = s.anode := by rw [service_eq]; split <;> simp [handler]

@[simp] theorem service_d_pend (snapshot : BitVec 4) (s : State) :
    (service snapshot .d s).pend = s.pend := by rw [service_eq]; split <;> simp [handler]

@[simp] theorem service_d_ovr (snapshot : BitVec 4) (s : State) :
    (service snapshot .d s).ovr = s.ovr := by rw [service_eq]; split <;> simp [handler]

@[simp] theorem service_d_fault (snapshot : BitVec 4) (s : State) :
    (service snapshot .d s).fault = s.fault := by rw [service_eq]; split <;> simp [handler]

@[simp] theorem service_d_cause (snapshot : BitVec 4) (s : State) :
    (service snapshot .d s).cause = s.cause := by rw [service_eq]; split <;> simp [handler]

@[simp] theorem service_d_rdata (snapshot : BitVec 4) (s : State) :
    (service snapshot .d s).rdata = s.rdata := by rw [service_eq]; split <;> simp [handler]

@[simp] theorem service_d_presented (snapshot : BitVec 4) (s : State) :
    (service snapshot .d s).presented = s.presented := by rw [service_eq]; split <;> simp [handler]

@[simp] theorem service_d_draws (snapshot : BitVec 4) (s : State) :
    (service snapshot .d s).draws = s.draws := by rw [service_eq]; split <;> simp [handler]

/-! ### All four services -/

@[simp] theorem serviceAll_src (snapshot : BitVec 4) (s : State) :
    (serviceAll snapshot s).src = s.src := by simp [serviceAll]

@[simp] theorem serviceAll_view (snapshot : BitVec 4) (s : State) :
    (serviceAll snapshot s).view = s.view := by simp [serviceAll]

@[simp] theorem serviceAll_blink (snapshot : BitVec 4) (s : State) :
    (serviceAll snapshot s).blink = s.blink := by simp [serviceAll]

@[simp] theorem serviceAll_setting (snapshot : BitVec 4) (s : State) :
    (serviceAll snapshot s).setting = s.setting := by simp [serviceAll]

@[simp] theorem serviceAll_pend (snapshot : BitVec 4) (s : State) :
    (serviceAll snapshot s).pend = s.pend := by simp [serviceAll]

@[simp] theorem serviceAll_ovr (snapshot : BitVec 4) (s : State) :
    (serviceAll snapshot s).ovr = s.ovr := by simp [serviceAll]

@[simp] theorem serviceAll_fault (snapshot : BitVec 4) (s : State) :
    (serviceAll snapshot s).fault = s.fault := by simp [serviceAll]

@[simp] theorem serviceAll_cause (snapshot : BitVec 4) (s : State) :
    (serviceAll snapshot s).cause = s.cause := by simp [serviceAll]

@[simp] theorem serviceAll_rdata (snapshot : BitVec 4) (s : State) :
    (serviceAll snapshot s).rdata = s.rdata := by simp [serviceAll]

@[simp] theorem serviceAll_presented (snapshot : BitVec 4) (s : State) :
    (serviceAll snapshot s).presented = s.presented := by simp [serviceAll]

@[simp] theorem serviceAll_draws (snapshot : BitVec 4) (s : State) :
    (serviceAll snapshot s).draws = s.draws := by simp [serviceAll]

/-! ### The meanings behind exec -/

@[simp] theorem exec_nop (s : State) : exec .nop s = .next s := rfl

@[simp] theorem exec_fire (ch : Channel) (s : State) : exec (.fire ch) s = execFire ch s := rfl

@[simp] theorem exec_dispatch (s : State) : exec .dispatch s = .next (serviceAll s.pend { s with pend := 0 }) :=
  execDispatch_eq s

@[simp] theorem exec_tick (s : State) : exec .tick s = execTick s := rfl

@[simp] theorem exec_wpair (p : BitVec 2) (d : Byte) (s : State) : exec (.wpair p d) s = execWpair p d s := rfl

@[simp] theorem exec_setview (v : BitVec 2) (s : State) : exec (.setview v) s = execSetview v s := rfl

@[simp] theorem exec_setctl (b b' : Bool) (s : State) : exec (.setctl b b') s = execSetctl b b' s := rfl

@[simp] theorem exec_ldsrc (f : BitVec 4) (n : Byte) (s : State) : exec (.ldsrc f n) s = execLdsrc f n s := rfl

@[simp] theorem exec_rd (r : ReadIndex) (s : State) : exec (.rd r) s = execRd r s := rfl

@[simp] theorem exec_clrerr (s : State) : exec .clrerr s = execClrerr s := rfl

/-- Everything a command can do to a state: the one effect its rule gives it, case by case. -/
theorem exec_cases (i : Instr) (s : State) :
    (i = .nop ∧ exec i s = .next s) ∨
    (∃ ch, i = .fire ch ∧
      exec i s = .next { s with ovr := ovrAfterFire s.pend s.ovr ch, pend := pendAfterFire s.pend ch }) ∨
    (i = .dispatch ∧ exec i s = .next (serviceAll s.pend { s with pend := 0 })) ∨
    (i = .tick ∧ exec i s = execTick s) ∨
    (∃ p d, i = .wpair p d ∧ exec i s = execWpair p d s) ∨
    (∃ v, i = .setview v ∧ exec i s = execSetview v s) ∨
    (∃ b b', i = .setctl b b' ∧ exec i s = .next { s with setting := b, blink := b' }) ∨
    (∃ f n, i = .ldsrc f n ∧ exec i s = execLdsrc f n s) ∨
    (∃ r, i = .rd r ∧ exec i s = .next { s with rdata := some (s.regRead r) }) ∨
    (i = .clrerr ∧ exec i s = .next { s with fault := false, cause := .none, ovr := 0 }) := by
  cases i with
  | nop => exact .inl ⟨rfl, rfl⟩
  | fire ch => exact .inr (.inl ⟨ch, rfl, rfl⟩)
  | dispatch => exact .inr (.inr (.inl ⟨rfl, exec_dispatch s⟩))
  | tick => exact .inr (.inr (.inr (.inl ⟨rfl, rfl⟩)))
  | wpair p d => exact .inr (.inr (.inr (.inr (.inl ⟨p, d, rfl, rfl⟩))))
  | setview v => exact .inr (.inr (.inr (.inr (.inr (.inl ⟨v, rfl, rfl⟩)))))
  | setctl b b' => exact .inr (.inr (.inr (.inr (.inr (.inr (.inl ⟨b, b', rfl, rfl⟩))))))
  | ldsrc f n => exact .inr (.inr (.inr (.inr (.inr (.inr (.inr (.inl ⟨f, n, rfl, rfl⟩)))))))
  | rd r => exact .inr (.inr (.inr (.inr (.inr (.inr (.inr (.inr (.inl ⟨r, rfl, rfl⟩))))))))
  | clrerr => exact .inr (.inr (.inr (.inr (.inr (.inr (.inr (.inr (.inr ⟨rfl, rfl⟩))))))))

end Sys2Proof.Machine
end

