-- ==== Sys2Proof/Laws/Effect.lean ====
section
/-!
SUPPORT. The inversion lemma of `exec`: said once, everything a command can do to a state. Invariants and whole-machine
rules follow by cases on `Effect`.
-/

namespace Sys2Proof.Machine

/-- `Effect s i t`: command `i` takes `s` to `t`, one constructor per way a rule of spec/ lets it act. -/
inductive Effect (s : State) : Instr → State → Prop where
  | nop : Effect s .nop s
  | fire (ch : Channel) :
    Effect s (.fire ch) { s with ovr := ovrAfterFire s.pend s.ovr ch, pend := pendAfterFire s.pend ch }
  | dispatch : Effect s .dispatch (serviceAll s.pend { s with pend := 0 })
  | tickHeld (hs : s.setting = true) : Effect s .tick s
  | tickStart (hs : s.setting = false) (hv : s.view ≠ s.lastView) (hr : s.rolling = false) :
    Effect s .tick { s with lastView := s.view, rolling := true, overCount := 0 }
  | tickJoin (hs : s.setting = false) (hv : s.view ≠ s.lastView) (hr : s.rolling = true) :
    Effect s .tick { s with lastView := s.view }
  | tickDuringRoll (hs : s.setting = false) (hv : s.view = s.lastView) (hr : s.rolling = true) : Effect s .tick s
  | tickCopy (hs : s.setting = false) (hv : s.view = s.lastView) (hr : s.rolling = false) :
    Effect s .tick { s with pair := s.targets }
  | refused (i : Instr) (c : Cause) (hi : i.wellFormed = false) (hc : c ≠ .none) : Effect s i (s.faulted c)
  | wpair (p : BitVec 2) (d : Byte) (q : Fin 3) (hq : q.val = p.toNat) (hw : (Instr.wpair p d).wellFormed = true)
    (hd : isBCD d = true) : Effect s (.wpair p d) { s with pair := s.pair.set q d }
  | setview (v : BitVec 2) (w : View) (hv : w.code = v) (hw : (Instr.setview v).wellFormed = true) :
    Effect s (.setview v) { s with view := w }
  | ldsrc (f : BitVec 4) (n : Byte) (g : Fin 9) (hg : g.val = f.toNat) (hw : (Instr.ldsrc f n).wellFormed = true)
    (hn : n.toNat ≤ 99) : Effect s (.ldsrc f n) { s with src := s.src.set g n }
  | setctl (b b' : Bool) : Effect s (.setctl b b') { s with setting := b, blink := b' }
  | rd (r : ReadIndex) : Effect s (.rd r) { s with rdata := some (s.regRead r) }
  | clrerr : Effect s .clrerr { s with fault := false, cause := .none, ovr := 0 }

/-! ### The checks of WellFormed are the checks of the meanings -/

theorem bcdLegal_eq (d : Byte) : bcdLegal d = isBCD d := by
  simp only [bcdLegal, isBCD, lo, hi, BitVec.le_def, Bool.and_comm]
  rfl

theorem pairIndexLegal_iff (p : BitVec 2) : pairIndexLegal p = true ↔ p ≠ 3 := by simp [pairIndexLegal]

theorem viewLegal_iff (v : BitVec 2) : viewLegal v = true ↔ v ≠ 3 := by simp [viewLegal]

theorem fieldLegal_iff (f : BitVec 4) : fieldLegal f = true ↔ f.toNat < 9 := by
  simp [fieldLegal, BitVec.lt_def]

theorem valueLegal_iff (n : Byte) : valueLegal n = true ↔ n.toNat ≤ 99 := by
  simp [valueLegal, BitVec.le_def]

/-- An ill-formed command is a WPAIR, a SETVIEW or an LDSRC (30_encoding.md R86). -/
theorem shape_of_ill_formed {i : Instr} (h : i.wellFormed = false) :
    (∃ p d, i = .wpair p d) ∨ (∃ v, i = .setview v) ∨ ∃ f n, i = .ldsrc f n := by
  cases i <;> simp_all [Instr.wellFormed]

/-! ### Inversion -/

theorem execTick_effect (s : State) : ∃ t, execTick s = .next t ∧ Effect s .tick t := by
  rcases execTick_cases s with ⟨hs, h⟩ | ⟨hs, hv, hr, h⟩ | ⟨hs, hv, hr, h⟩ | ⟨hs, hv, hr, h⟩ | ⟨hs, hv, hr, h⟩
  · exact ⟨_, h, .tickHeld hs⟩
  · exact ⟨_, h, .tickStart hs hv hr⟩
  · exact ⟨_, h, .tickJoin hs hv hr⟩
  · exact ⟨_, h, .tickDuringRoll hs hv hr⟩
  · exact ⟨_, h, .tickCopy hs hv hr⟩

theorem execWpair_effect (p : BitVec 2) (d : Byte) (s : State) :
    ∃ t, execWpair p d s = .next t ∧ Effect s (.wpair p d) t := by
  rcases execWpair_cases p d s with ⟨hp, h⟩ | ⟨hp, hd, h⟩ | ⟨q, hq, hp, hd, h⟩
  · exact ⟨_, h, .refused _ .badPair (by simp [Instr.wellFormed, pairIndexLegal, hp]) (by decide)⟩
  · exact ⟨_, h, .refused _ .badBcd (by simp [Instr.wellFormed, bcdLegal_eq, hd]) (by decide)⟩
  · exact ⟨_, h, .wpair p d q hq (by simp [Instr.wellFormed, bcdLegal_eq, hd, (pairIndexLegal_iff p).2 hp]) hd⟩

theorem execSetview_effect (v : BitVec 2) (s : State) :
    ∃ t, execSetview v s = .next t ∧ Effect s (.setview v) t := by
  rcases execSetview_cases v s with ⟨hv, h⟩ | ⟨w, hw, hv, h⟩
  · exact ⟨_, h, .refused _ .badView (by simp [Instr.wellFormed, viewLegal, hv]) (by decide)⟩
  · exact ⟨_, h, .setview v w hw (by simp [Instr.wellFormed, (viewLegal_iff v).2 hv])⟩

theorem execLdsrc_effect (f : BitVec 4) (n : Byte) (s : State) :
    ∃ t, execLdsrc f n s = .next t ∧ Effect s (.ldsrc f n) t := by
  rcases execLdsrc_cases f n s with ⟨hf, h⟩ | ⟨hf, hn, h⟩ | ⟨g, hg, hn, h⟩
  · refine ⟨_, h, .refused _ .badField ?_ (by decide)⟩
    have : fieldLegal f = false := by rw [Bool.eq_false_iff, Ne, fieldLegal_iff]; omega
    simp [Instr.wellFormed, this]
  · refine ⟨_, h, .refused _ .range ?_ (by decide)⟩
    have : valueLegal n = false := by rw [Bool.eq_false_iff, Ne, valueLegal_iff]; omega
    simp [Instr.wellFormed, this]
  · have := (fieldLegal_iff f).2 (by omega)
    exact ⟨_, h, .ldsrc f n g hg (by simp [Instr.wellFormed, this, (valueLegal_iff n).2 hn]) hn⟩

/-- Every command has an effect, and it is the answer of `exec`. -/
theorem exec_has_effect (i : Instr) (s : State) : ∃ t, exec i s = .next t ∧ Effect s i t := by
  cases i with
  | nop => exact ⟨_, rfl, .nop⟩
  | fire ch => exact ⟨_, rfl, .fire ch⟩
  | dispatch => exact ⟨_, exec_dispatch s, .dispatch⟩
  | tick => exact execTick_effect s
  | wpair p d => exact execWpair_effect p d s
  | setview v => exact execSetview_effect v s
  | setctl b b' => exact ⟨_, rfl, .setctl b b'⟩
  | ldsrc f n => exact execLdsrc_effect f n s
  | rd r => exact ⟨_, rfl, .rd r⟩
  | clrerr => exact ⟨_, rfl, .clrerr⟩

/-- If a command answers `t`, then `t` is an effect the command can have. -/
theorem exec_effect {i : Instr} {s t : State} (h : exec i s = .next t) : Effect s i t := by
  obtain ⟨u, hu, he⟩ := exec_has_effect i s
  rw [h] at hu
  cases hu
  exact he

/-- An input performed: RESET, a command, or a word that is none. -/
theorem performInput_effect {i : Input} {s t : State} (h : performInput i s = .next t) :
    (i = .reset ∧ t = s.applyReset) ∨
    (∃ w c, i = .command w ∧ decode w = .ok c ∧ Effect s c t) ∨
    (∃ w reason, i = .command w ∧ decode w = .error reason ∧ t = s.faulted .illegalCmd) := by
  cases i with
  | reset => cases h; exact .inl ⟨rfl, rfl⟩
  | command w =>
    rcases performWord_cases w s with ⟨c, hc, e⟩ | ⟨⟨r, hr⟩, e⟩
    · exact .inr (.inl ⟨w, c, rfl, hc, exec_effect (e ▸ h)⟩)
    · rw [performInput, e] at h
      cases h
      exact .inr (.inr ⟨w, r, rfl, hr, rfl⟩)

/-- What performing begins with: open ports, one input fewer or one draw more, and every register as it was. -/
theorem consumed_cases (s : State) :
    (∃ i rest, s.presented = i :: rest ∧ s.nextInput = i ∧
      s.consumed = { s with presented := rest, strobes := [], rdata := none }) ∨
    (s.presented = [] ∧ s.nextInput = Config.freeInput s.draws ∧
      s.consumed = { s with presented := [], draws := s.draws + 1, strobes := [], rdata := none }) := by
  rcases h : s.presented with _ | ⟨i, rest⟩
  · exact .inr ⟨rfl, by simp [State.nextInput, h], by rw [consumed_of_unlisted h, h]⟩
  · exact .inl ⟨i, rest, rfl, nextInput_of_presented h, consumed_of_presented h⟩

end Sys2Proof.Machine
end

