-- ==== Sys2Proof/Laws/PerInstr.lean ====
section
/-!
SUPPORT. Facts about each command as syntax, one lemma per constructor. Family RowMatch: the word of a command selects its
own row of 30_encoding.md R83, `(w & mask) == match`.
-/

namespace Sys2Proof.Laws.RowMatch

/-- The command's word matches its row under the row's mask: no operand bit falls on a fixed bit. -/
def Statement (i : Instr) : Prop := encode i &&& i.opcode.mask = i.opcode.pattern

theorem nop : Statement .nop := by unfold Statement; decide

theorem fire (ch : Channel) : Statement (.fire ch) := by cases ch <;> (unfold Statement; decide)

theorem dispatch : Statement .dispatch := by unfold Statement; decide

theorem tick : Statement .tick := by unfold Statement; decide

theorem wpair (p : BitVec 2) (d : Byte) : Statement (.wpair p d) := by
  have hd : d.zeroExtend 16 &&& (0xFC00 : Word) = 0 := by
    apply BitVec.eq_of_getLsbD_eq
    intro k hk
    have : k < 8 → (0xFC00 : Word).getLsbD k = false := by intro h; interval_cases k <;> rfl
    by_cases h8 : k < 8
    · rw [BitVec.getLsbD_and, this h8]
      simp
    · simp [BitVec.getLsbD_of_ge d k (by omega)]
  have hp : (p.zeroExtend 16 <<< 8) &&& (0xFC00 : Word) = 0 := by revert p; decide
  simp only [Statement, encode, Instr.opcode, Instr.fieldBits, Opcode.mask, Opcode.pattern]
  rw [BitVec.and_or_distrib_right, BitVec.and_or_distrib_right, hp, hd]
  rfl

theorem setview (v : BitVec 2) : Statement (.setview v) := by revert v; unfold Statement; decide

theorem setctl (s b : Bool) : Statement (.setctl s b) := by revert s b; unfold Statement; decide

theorem ldsrc (f : BitVec 4) (n : Byte) : Statement (.ldsrc f n) := by
  have hn : n.zeroExtend 16 &&& (0xF000 : Word) = 0 := by
    apply BitVec.eq_of_getLsbD_eq
    intro k hk
    have : k < 8 → (0xF000 : Word).getLsbD k = false := by intro h; interval_cases k <;> rfl
    by_cases h8 : k < 8
    · rw [BitVec.getLsbD_and, this h8]
      simp
    · simp [BitVec.getLsbD_of_ge n k (by omega)]
  have hf : (f.zeroExtend 16 <<< 8) &&& (0xF000 : Word) = 0 := by revert f; decide
  simp only [Statement, encode, Instr.opcode, Instr.fieldBits, Opcode.mask, Opcode.pattern]
  rw [BitVec.and_or_distrib_right, BitVec.and_or_distrib_right, hf, hn]
  rfl

theorem rd (r : ReadIndex) : Statement (.rd r) := by cases r <;> (unfold Statement; decide)

theorem clrerr : Statement .clrerr := by unfold Statement; decide

end Sys2Proof.Laws.RowMatch
end

