-- ==== Sys2Proof/Laws/Run.lean ====
section
/-!
SUPPORT. Runs: one step peeled off a run of the machine, one command peeled off the run of a list of commands, and the
frame of a command on what the environment will present.
-/

namespace Sys2Proof.Machine

/-- A run whose first step answers `t` goes on from `t`. -/
theorem run_succ {s t : State} (h : step s = .next t) (n : Nat) :
    Host.Core.run Sys2Proof.core (n + 1) s = Host.Core.run Sys2Proof.core n t := by
  have h' : Sys2Proof.core.step s = .next t := h
  simp only [Host.Core.run, h']

theorem afterCommands_nil (s : State) : afterCommands [] s = .next { s with presented := [] } := rfl

/-- The first command of a list performed: the rest of the list runs from its answer. Its word must decode to it. -/
theorem afterCommands_cons {i : Instr} {is : List Instr} {s t : State} (hi : decode (encode i) = .ok i)
    (h : exec i { s with presented := presentation is, strobes := [], rdata := none } = .next t)
    (ht : t.presented = presentation is) : afterCommands (i :: is) s = afterCommands is t := by
  have hs : ({ s with presented := presentation (i :: is) } : State).presented =
      .command (encode i) :: presentation is := rfl
  have hstep : step { s with presented := presentation (i :: is) } = .next t := by
    rw [step, nextInput_of_presented hs, consumed_of_presented hs]
    simpa only [performInput, performWord, hi] using h
  rw [afterCommands, List.length_cons, run_succ hstep, afterCommands, ← ht]

/-! ### What the environment will present -/

/-- No command writes what the environment will present (log 1, log 2). -/
theorem exec_keeps_environment {i : Instr} {s t : State} (h : exec i s = .next t) :
    t.presented = s.presented ∧ t.draws = s.draws := by
  cases exec_effect h <;> simp [State.faulted]

theorem handler_ignores_presented (ch : Channel) (s : State) (l : List Input) :
    handler ch { s with presented := l } = { handler ch s with presented := l } := by
  cases ch
  · simp only [handler, handleA]
    split <;> rfl
  · simp only [handler, handleB]
    split <;> [rfl; split] <;> rfl
  · rfl
  · simp only [handler, handleD]
    split
    · rfl
    · change (if rollComplete s.advanceRoll.overCount s.advanceRoll.pair s.targets then _ else _) =
        ({ (if _ then _ else _ : State) with presented := l } : State)
      split <;> rfl

theorem serviceAll_ignores_presented (snapshot : BitVec 4) (s : State) (l : List Input) :
    serviceAll snapshot { s with presented := l } = { serviceAll snapshot s with presented := l } := by
  have h : ∀ (ch : Channel) (u : State),
      service snapshot ch { u with presented := l } = { service snapshot ch u with presented := l } := by
    intro ch u
    rw [service_eq, service_eq, handler_ignores_presented]
    split <;> rfl
  simp only [serviceAll, h]

/-! ### FIRE and DISPATCH in a run -/

/-- A FIRE at the head of a list of commands. -/
theorem afterCommands_fire (ch : Channel) (is : List Instr) (s : State) :
    afterCommands (.fire ch :: is) s =
      afterCommands is { s with ovr := ovrAfterFire s.pend s.ovr ch, pend := pendAfterFire s.pend ch,
                                presented := presentation is, strobes := [], rdata := none } :=
  afterCommands_cons (by cases ch <;> rfl) rfl rfl

/-- A DISPATCH at the head of a list of commands. -/
theorem afterCommands_dispatch (is : List Instr) (s : State) :
    afterCommands (.dispatch :: is) s =
      afterCommands is (serviceAll s.pend
        { s with pend := 0, presented := presentation is, strobes := [], rdata := none }) :=
  afterCommands_cons rfl (exec_dispatch _) (by simp)

end Sys2Proof.Machine
end

