-- ==== Sys2Proof/Tests/Slice0.lean ====
section
/-!
SUPPORT. Tests of the definitions against the spec's own words and vectors (95_test_vectors.md, named in each comment),
and a witness for every statement that has hypotheses: a state and operands that meet all of them.
-/

namespace Sys2Proof.Tests

open Sys2Proof.Machine

/-- The state a command answers, if it answers one. -/
def after (i : Instr) (s : State) : Option State :=
  match exec i s with
  | .next t => some t
  | _ => none

/-- The state a step answers, if it answers one. -/
def stepped (s : State) : Option State :=
  match step s with
  | .next t => some t
  | _ => none

/-! ### States of the vectors -/

/-- After the first TICK (DB1 row 1). -/
def shown : State := { State.reset with pair := #v[0x12, 0x01, 0x00] }

/-- After SHOW DATE on it (AN1): a roll counted from 0. -/
def rolling : State := { shown with view := .date, lastView := .date, rolling := true }

/-- The last state of that roll but one (AN1 row 18). -/
def lastStep : State := { rolling with pair := #v[0x30, 0x12, 0x17], overCount := 18 }

/-- A channel has fired. -/
def fired (s : State) (flags : BitVec 4) : State := { s with pend := flags }

/-- Phase 0 with its first occurrence of B due (42_multiplexing.md R173 example). -/
def cathDue : State := { shown with phase := 0, bStage := .cath }

/-- Phase 0 with its second occurrence of B due (42_multiplexing.md R173 example). -/
def anodeDue : State := { shown with phase := 0, bStage := .anode, cathode := 4 }

/-- A fault is recorded (DB4 row 4). -/
def refused : State := { State.reset with fault := true, cause := .badPair, ovr := 1 }

/-! ### WellFormed refuses an ill-formed command, one per check (30_encoding.md R86) -/

theorem test_wellFormed_pair : (Instr.wpair 3 0x00).wellFormed = false := by decide
theorem test_wellFormed_low_digit : (Instr.wpair 1 0x9A).wellFormed = false := by decide
theorem test_wellFormed_high_digit : (Instr.wpair 1 0xA0).wellFormed = false := by decide
theorem test_wellFormed_view : (Instr.setview 3).wellFormed = false := by decide
theorem test_wellFormed_field : (Instr.ldsrc 9 0).wellFormed = false := by decide
theorem test_wellFormed_value : (Instr.ldsrc 0 100).wellFormed = false := by decide
theorem test_wellFormed_legal :
    ([.wpair 2 0x99, .setview 2, .ldsrc 8 99] : List Instr).all Instr.wellFormed = true := by decide

/-! ### Decoding: words written out from the formats of 30_encoding.md R81, as in vector table 2.1 -/

theorem test_decode_nop : decode 0b0000_0000_0000_0000 = .ok .nop := by decide
theorem test_decode_fire : decode 0b0001_0000_0000_0001 = .ok (.fire .b) := by decide
theorem test_decode_dispatch : decode 0b0010_0000_0000_0000 = .ok .dispatch := by decide
theorem test_decode_tick : decode 0b0011_0000_0000_0000 = .ok .tick := by decide
theorem test_decode_wpair : decode 0b0100_0010_1001_1001 = .ok (.wpair 2 0x99) := by decide
theorem test_decode_setview : decode 0b0101_0000_0000_0011 = .ok (.setview 3) := by decide
theorem test_decode_setctl : decode 0b0110_0000_0000_0001 = .ok (.setctl false true) := by decide
theorem test_decode_ldsrc : decode 0b0111_0101_0110_0011 = .ok (.ldsrc 5 99) := by decide
theorem test_decode_rd : decode 0b1000_0000_0000_1111 = .ok (.rd .uHour) := by decide
theorem test_decode_clrerr : decode 0b1001_0000_0000_0000 = .ok .clrerr := by decide

/-- Vector table 2.1: a reserved bit in each format. -/
theorem test_decode_reserved_bits :
    ([0x0001, 0x0800, 0x1004, 0x1100, 0x2001, 0x3800, 0x4400, 0x47FF, 0x5004, 0x5007, 0x6004, 0x8010, 0x9001] :
      List Word).all (fun w => decode w == .error .reservedBits) = true := by decide

/-- Vector table 2.1: every reserved opcode. -/
theorem test_decode_reserved_opcodes :
    ([0xA000, 0xB123, 0xC000, 0xD000, 0xE000, 0xF000, 0xFFFF] :
      List Word).all (fun w => decode w == .error .reservedOpcode) = true := by decide

/-- 30_encoding.md R90: the words of its table. -/
theorem test_encode : ([.fire .d, .wpair 1 0x59, .setview 1, .setctl true false, .ldsrc 2 10, .rd .muxstat] :
    List Instr).map encode = [0x1003, 0x4159, 0x5001, 0x6002, 0x720A, 0x8004] := by decide

/-! ### Assembler text (30_encoding.md R90, R91) -/

/-- S5: LDTIME 10, 30, 45. -/
theorem test_assemble_pseudo :
    (assemble "LDTIME 10, 30, 45").map (List.map encode) = some [0x720A, 0x711E, 0x702D] := by decide

theorem test_assemble_text : assemble (asmText (.ldsrc 4 45)) = some [.ldsrc 4 45] := by decide
theorem test_assemble_hex : assemble "wpair 1, 0x59" = some [.wpair 1 0x59] := by decide
theorem test_assemble_rejects : assemble "WPAIR 4, 0x00" = none ∧ assemble "LDSRC T_SEC, 256" = none := by decide

/-! ### One step of each command -/

theorem test_nop : after .nop shown = some shown := by decide

/-- R170 example: a second FIRE A sets OVR. -/
theorem test_fire : after (.fire .a) State.reset = some (fired State.reset 1) := by decide
theorem test_fire_again : after (.fire .a) (fired State.reset 1) = some { fired State.reset 1 with ovr := 1 } := by decide

/-- R171 example: PHASE = 0, B_STAGE = 1, PEND = 0, ARM_B. -/
theorem test_dispatch_a : after .dispatch (fired State.reset 1) =
    some { State.reset with phase := 0, bStage := .cath, strobes := [.armB] } := by decide

/-- R173 example, first occurrence: CATHODE = 0b0000000100. -/
theorem test_dispatch_b : (after .dispatch (fired cathDue 2)).map (fun t => (t.cathode, t.anode, t.bStage, t.strobes)) =
    some (0b0000000100, 0, .anode, [.armB]) := by decide

/-- AN1 row 1: (23,12,11), OVER = 1. -/
theorem test_dispatch_d : (after .dispatch (fired rolling 8)).map (fun t => (t.pair, t.overCount, t.rolling)) =
    some (#v[0x23, 0x12, 0x11], 1, true) := by decide

/-- AN1 row 19: (31,12,17), ROLL_DONE. -/
theorem test_dispatch_d_done : after .dispatch (fired lastStep 8) =
    some { rolling with pair := #v[0x31, 0x12, 0x17], rolling := false, strobes := [.rollDone] } := by decide

/-- DB1 row 1 and row 5. -/
theorem test_tick_copy : after .tick State.reset = some shown := by decide
theorem test_tick_roll : after .tick { shown with view := .date } = some rolling := by decide

/-- DB4 rows 1 and 4. -/
theorem test_wpair : after (.wpair 1 0x59) State.reset = some { State.reset with pair := #v[0x00, 0x59, 0x00] } := by
  decide
theorem test_wpair_refused : after (.wpair 3 0xFF) shown = some { shown with fault := true, cause := .badPair } := by
  decide

/-- R113 example, and vector table 2.1 word 0x5003. -/
theorem test_setview : after (.setview 1) shown = some { shown with view := .date } := by decide
theorem test_setview_refused : after (.setview 3) shown = some { shown with fault := true, cause := .badView } := by
  decide

/-- R200 example. -/
theorem test_setctl : after (.setctl true false) shown = some { shown with setting := true } := by decide

/-- R114 examples; R223: index before datum. -/
theorem test_ldsrc : (after (.ldsrc 2 10) State.reset).map (·.src) = some #v[12, 1, 10, 31, 12, 17, 0, 0, 0] := by
  decide
theorem test_ldsrc_refused : (after (.ldsrc 9 200) shown).map (·.cause) = some .badField := by decide

/-- R201 examples. -/
theorem test_rd_muxstat : after (.rd .muxstat) State.reset = some { State.reset with rdata := some 0x0005 } := by decide

/-- RS1: ROLLSTAT = 0x3525 in the busy state. -/
theorem test_rd_rollstat : (after (.rd .rollstat)
    { rolling with setting := true, blink := true, overCount := 5 }).bind (·.rdata) = some 0x3525 := by decide

/-- R202 example. -/
theorem test_clrerr : after .clrerr refused = some State.reset := by decide

/-- R222: the first cause is kept (DB4 row 5). -/
theorem test_first_cause : after (.wpair 1 0x9A) refused = some refused := by decide

/-- R250: RESET from a busy state leaves only the inputs to come. -/
theorem test_reset : stepped { lastStep with presented := [.reset, .command 0x3000] } =
    some { State.reset with presented := [.command 0x3000] } := by decide

/-- The host's one word: TICK is the next step, and nothing else has changed. -/
theorem test_withFetchWord : stepped (State.reset.withFetchWord 16 0x3000) = some shown := by decide
theorem test_decodeTableWord : decodeTableWord 16 0x4159 = some (.wpair 1 0x59) := by decide

/-! ### Witnesses: the hypotheses of each statement met together, clause by clause -/

/-- The invariants in a state with a roll, a due occurrence and a lit digit's pattern. -/
theorem witness_inv_rolling : rolling.Inv :=
  ⟨by decide, by decide, by decide, by decide, by decide, ⟨.inl rfl, .inl rfl⟩, by decide, by decide, by decide,
    by decide, by decide⟩

theorem witness_inv_lastStep : lastStep.Inv :=
  ⟨by decide, by decide, by decide, by decide, by decide, ⟨.inl rfl, .inl rfl⟩, by decide, by decide, by decide,
    by decide, by decide⟩

theorem witness_inv_shown : shown.Inv :=
  ⟨by decide, by decide, by decide, by decide, by decide, ⟨.inl rfl, .inl rfl⟩, by decide, by decide, by decide,
    by decide, by decide⟩

theorem witness_inv_anodeDue : anodeDue.Inv :=
  ⟨by decide, by decide, by decide, by decide, by decide, ⟨.inr ⟨2, by decide⟩, .inl rfl⟩, by decide, by decide,
    by decide, by decide, by decide⟩

theorem witness_inv_fired_both : (fired shown 0b0011).Inv :=
  ⟨by decide, by decide, by decide, by decide, by decide, ⟨.inl rfl, .inl rfl⟩, by decide, by decide, by decide,
    by decide, by decide⟩

theorem witness_inv_completing : (fired lastStep 0b1000).Inv :=
  ⟨by decide, by decide, by decide, by decide, by decide, ⟨.inl rfl, .inl rfl⟩, by decide, by decide, by decide,
    by decide, by decide⟩

theorem witness_no_row : (∀ row ∈ opcodeRows, (0x0001 : Word) &&& row.2 ≠ row.1) ∧
    (∀ row ∈ opcodeRows, (0x47FF : Word) &&& row.2 ≠ row.1) ∧ ∀ row ∈ opcodeRows, (0x5007 : Word) &&& row.2 ≠ row.1 := by
  simp [opcodeRows]

/-- DecodeFollowsOpcodeMap: a word at the top of each row; `witness_no_row` has words of none. -/
theorem witness_opcode_map :
    (0x0000 : Word) &&& 0xFFFF = 0x0000 ∧ (0x1003 : Word) &&& 0xFFFC = 0x1000 ∧ (0x2000 : Word) &&& 0xFFFF = 0x2000 ∧
    (0x3000 : Word) &&& 0xFFFF = 0x3000 ∧ (0x43FF : Word) &&& 0xFC00 = 0x4000 ∧ (0x5003 : Word) &&& 0xFFFC = 0x5000 ∧
    (0x6003 : Word) &&& 0xFFFC = 0x6000 ∧ (0x7FFF : Word) &&& 0xF000 = 0x7000 ∧ (0x800F : Word) &&& 0xFFF0 = 0x8000 ∧
    (0x9000 : Word) &&& 0xFFFF = 0x9000 := by decide

/-- IllegalWordsOnlyRaiseIllegalCmd: the first and the last reserved opcode; `witness_no_row` has reserved bits. -/
theorem witness_illegal_words :
    10 ≤ ((0xA000 : Word).extractLsb' 12 4).toNat ∧ 10 ≤ ((0xFFFF : Word).extractLsb' 12 4).toNat := by
  decide

/-- EncodeDecodeRoundTrip. -/
theorem witness_decoded : decode 0x4359 = .ok (.wpair 3 0x59) := by decide

/-- StepPerformsPresentedCommand: a command, and a word that is none. -/
theorem witness_presented :
    ({ shown with presented := [.command 0x3000] } : State).presented = .command 0x3000 :: [] ∧
    decode 0x3000 = .ok .tick ∧
    ({ shown with presented := [.command 0xA000] } : State).presented = .command 0xA000 :: [] ∧
    decode 0xA000 = .error .reservedOpcode := by decide

/-- ResetStepSetsEveryRegister. -/
theorem witness_presented_reset : ({ lastStep with presented := [.reset] } : State).presented = .reset :: [] := by decide

/-- UnlistedInputIsFree. -/
theorem witness_unlisted : shown.presented = [] := by decide

/-- NopDoesNothing: the ends of the range. -/
theorem witness_nop_words :
    0x0001 ≤ (0x0001 : Word).toNat ∧ (0x0001 : Word).toNat ≤ 0x0FFF ∧
    0x0001 ≤ (0x0FFF : Word).toNat ∧ (0x0FFF : Word).toNat ≤ 0x0FFF := by decide

/-- The word clauses of the command statements: for each opcode a word without and a word with a reserved bit. -/
theorem witness_operand_words :
    ((0x6003 : Word).extractLsb' 12 4 = 6 ∧ (0x6003 : Word).extractLsb' 2 10 = 0 ∧
      (0x6004 : Word).extractLsb' 12 4 = 6 ∧ (0x6004 : Word).extractLsb' 2 10 ≠ 0) ∧
    ((0x800F : Word).extractLsb' 12 4 = 8 ∧ (0x800F : Word).extractLsb' 4 8 = 0 ∧
      (0x8010 : Word).extractLsb' 12 4 = 8 ∧ (0x8010 : Word).extractLsb' 4 8 ≠ 0) ∧
    ((0x9000 : Word).extractLsb' 12 4 = 9 ∧ (0x9000 : Word).extractLsb' 0 12 = 0 ∧
      (0x9001 : Word).extractLsb' 12 4 = 9 ∧ (0x9001 : Word).extractLsb' 0 12 ≠ 0) ∧
    ((0x3000 : Word).extractLsb' 12 4 = 3 ∧ (0x3000 : Word).extractLsb' 0 12 = 0 ∧
      (0x3800 : Word).extractLsb' 12 4 = 3 ∧ (0x3800 : Word).extractLsb' 0 12 ≠ 0) ∧
    ((0x43FF : Word).extractLsb' 12 4 = 4 ∧ (0x43FF : Word).extractLsb' 10 2 = 0 ∧
      (0x4400 : Word).extractLsb' 12 4 = 4 ∧ (0x4400 : Word).extractLsb' 10 2 ≠ 0) ∧
    ((0x5003 : Word).extractLsb' 12 4 = 5 ∧ (0x5003 : Word).extractLsb' 2 10 = 0 ∧
      (0x5004 : Word).extractLsb' 12 4 = 5 ∧ (0x5004 : Word).extractLsb' 2 10 ≠ 0) ∧
    (0x7FFF : Word).extractLsb' 12 4 = 7 ∧
    ((0x1003 : Word).extractLsb' 12 4 = 1 ∧ (0x1003 : Word).extractLsb' 2 10 = 0 ∧
      (0x1004 : Word).extractLsb' 12 4 = 1 ∧ (0x1004 : Word).extractLsb' 2 10 ≠ 0) ∧
    ((0x2000 : Word).extractLsb' 12 4 = 2 ∧ (0x2000 : Word).extractLsb' 0 12 = 0 ∧
      (0x2001 : Word).extractLsb' 12 4 = 2 ∧ (0x2001 : Word).extractLsb' 0 12 ≠ 0) := by decide

/-- ReadsRevealEveryRegister: two states that differ in a strobe only. -/
theorem witness_reads_alike : ∀ r : ReadIndex, ∃ v, exec (.rd r) shown = .next { shown with rdata := some v } ∧
    exec (.rd r) { shown with strobes := [.armB] } = .next { shown with strobes := [.armB], rdata := some v } := by
  intro r
  exact ⟨_, rfl, by cases r <;> rfl⟩

/-- TickCopiesOrStartsRoll, DirectCopyMapping: each case of TICK, each view, latches at both ends of their range. -/
theorem witness_tick :
    ({ shown with setting := true } : State).setting = true ∧
    (({ shown with view := .date } : State).setting = false ∧
      ({ shown with view := .date } : State).view ≠ ({ shown with view := .date } : State).lastView ∧
      ({ shown with view := .date } : State).rolling = false) ∧
    (({ rolling with view := .time } : State).setting = false ∧
      ({ rolling with view := .time } : State).view ≠ ({ rolling with view := .time } : State).lastView ∧
      ({ rolling with view := .time } : State).rolling = true) ∧
    (rolling.setting = false ∧ rolling.view = rolling.lastView ∧ rolling.rolling = true) ∧
    (shown.setting = false ∧ shown.view = shown.lastView ∧ shown.rolling = false) ∧
    (∀ f : Fin 9, (#v[99, 0, 99, 0, 99, 0, 99, 0, 99] : Vector Byte 9)[f].toNat ≤ 99) ∧
    View.time.code = 0 ∧ View.date.code = 1 ∧ View.userData.code = 2 := by decide

/-- ToBCDPutsTensHigh: the ends of the range. -/
theorem witness_toBCD : (0 : Byte).toNat ≤ 99 ∧ (99 : Byte).toNat ≤ 99 := by decide

/-- WpairWritesOnePair, SetviewWritesView, LdsrcLoadsOneLatch: each case at its boundary. -/
theorem witness_operands :
    ((2 : BitVec 2) ≠ 3 ∧ 9 < (0xA0 : Byte).toNat / 16 ∧ 9 < (0x0A : Byte).toNat % 16) ∧
    ((2 : BitVec 2) ≠ 3 ∧ (0x99 : Byte).toNat / 16 ≤ 9 ∧ (0x99 : Byte).toNat % 16 ≤ 9) ∧
    (9 ≤ (9 : BitVec 4).toNat ∧ 9 ≤ (15 : BitVec 4).toNat) ∧
    ((8 : BitVec 4).toNat < 9 ∧ 99 < (100 : Byte).toNat) ∧
    ((8 : BitVec 4).toNat < 9 ∧ (99 : Byte).toNat ≤ 99) := by decide

/-- WritersOfTheBuffer, WritersOfEachRegister: each register written by a command that may. -/
theorem witness_writers :
    (∃ t, exec (.wpair 0 0x31) shown = .next t ∧ t.pair ≠ shown.pair) ∧
    (∃ t, exec .tick State.reset = .next t ∧ t.pair ≠ State.reset.pair) ∧
    (∃ t, exec .dispatch (fired rolling 8) = .next t ∧ t.pair ≠ (fired rolling 8).pair ∧
      t.overCount ≠ (fired rolling 8).overCount) ∧
    (∃ t, exec (.ldsrc 0 99) shown = .next t ∧ t.src ≠ shown.src) ∧
    (∃ t, exec (.setview 2) shown = .next t ∧ t.view ≠ shown.view) ∧
    (∃ t, exec .tick { shown with view := .date } = .next t ∧ t.lastView ≠ shown.lastView ∧
      t.rolling ≠ shown.rolling) ∧
    (∃ t, exec (.setctl true true) shown = .next t ∧ t.blink ≠ shown.blink ∧ t.setting ≠ shown.setting) ∧
    (∃ t, exec .dispatch (fired shown 1) = .next t ∧ t.phase ≠ (fired shown 1).phase ∧
      t.bStage ≠ (fired shown 1).bStage ∧ t.pend ≠ (fired shown 1).pend ∧ t.strobes ≠ (fired shown 1).strobes) ∧
    (∃ t, exec .dispatch (fired cathDue 2) = .next t ∧ t.cathode ≠ (fired cathDue 2).cathode) ∧
    (∃ t, exec .dispatch (fired anodeDue 2) = .next t ∧ t.anode ≠ (fired anodeDue 2).anode) ∧
    (∃ t, exec (.fire .a) (fired shown 2) = .next t ∧ t.pend ≠ (fired shown 2).pend) ∧
    (∃ t, exec (.fire .a) (fired shown 1) = .next t ∧ t.ovr ≠ (fired shown 1).ovr) ∧
    (∃ t, exec (.wpair 3 0) shown = .next t ∧ t.fault ≠ shown.fault ∧ t.cause ≠ shown.cause) ∧
    ∃ t, exec (.rd .pair0) shown = .next t ∧ t.rdata ≠ shown.rdata :=
  ⟨⟨_, rfl, by decide⟩, ⟨_, rfl, by decide⟩, ⟨_, rfl, by decide⟩, ⟨_, rfl, by decide⟩, ⟨_, rfl, by decide⟩,
    ⟨_, rfl, by decide⟩, ⟨_, rfl, by decide⟩, ⟨_, rfl, by decide⟩, ⟨_, rfl, by decide⟩, ⟨_, rfl, by decide⟩,
    ⟨_, rfl, by decide⟩, ⟨_, rfl, by decide⟩, ⟨_, rfl, by decide⟩, ⟨_, rfl, by decide⟩⟩

/-- WpairOutsideSetModeIsOverwritten. -/
theorem witness_wpair_outside : shown.Inv ∧ shown.setting = false ∧ shown.rolling = false ∧
    shown.view = shown.lastView := ⟨witness_inv_shown, by decide⟩

/-- ViewChangeShowsUpLate: with no roll, and while one runs. -/
theorem witness_view_change : shown.lastView.code ≠ 2 ∧ (2 : BitVec 2) ≠ 3 ∧ shown.setting = false ∧
    shown.rolling = false ∧ rolling.lastView.code ≠ 0 ∧ (0 : BitVec 2) ≠ 3 ∧ rolling.setting = false ∧
    rolling.rolling = true := by decide

/-- DispatchClearsAndServicesInOrder, DispatchFrame: nothing pending, and each flag absent. -/
theorem witness_dispatch : shown.pend = 0 ∧ (fired shown 0b1100).pend.getLsbD 0 = false ∧
    (fired shown 0b1100).pend.getLsbD 1 = false ∧ (fired shown 0b0111).pend.getLsbD 3 = false ∧
    (∃ t, exec .dispatch (fired shown 0b1100) = .next t) := ⟨rfl, rfl, rfl, rfl, _, rfl⟩

/-- ChannelABlanksAndAdvances, ChannelBShowsThePhaseDigit, ChannelCPassesTheTickOn: each case. -/
theorem witness_channels :
    ((fired shown 1).pend = 0b0001 ∧ (fired shown 1).blink = false ∧
      (fired { shown with blink := true } 1).pend = 0b0001 ∧ (fired { shown with blink := true } 1).blink = true) ∧
    ((fired { cathDue with blink := true } 2).pend = 0b0010 ∧ (fired { cathDue with blink := true } 2).blink = true) ∧
    ((fired shown 2).pend = 0b0010 ∧ (fired shown 2).blink = false ∧ (fired shown 2).bStage = .idle) ∧
    ((fired cathDue 2).pend = 0b0010 ∧ (fired cathDue 2).blink = false ∧ (fired cathDue 2).bStage = .cath ∧
      digitAt (fired cathDue 2).pair (fired cathDue 2).phase = (2 : Fin 10).val) ∧
    ((fired anodeDue 2).pend = 0b0010 ∧ (fired anodeDue 2).blink = false ∧ (fired anodeDue 2).bStage = .anode) ∧
    (fired shown 4).pend = 0b0100 := by decide

/-- UndueBFiringIsIgnored, ScanLightsThePhases, ObservationOfAScan. -/
theorem witness_scan : shown.Inv ∧ shown.blink = false ∧ shown.bStage = .idle ∧ shown.pend = 0 ∧
    ({ shown with blink := true } : State).pend = 0 ∧ ({ shown with blink := true } : State).blink = true :=
  ⟨witness_inv_shown, by decide⟩

/-- SnapshotOfAAndB. -/
theorem witness_snapshot : (fired shown 0b0011).Inv ∧ (fired shown 0b0011).pend = 0b0011 ∧
    (fired shown 0b0011).blink = false := ⟨witness_inv_fired_both, by decide⟩

/-- RollStepTurnsEveryNibble: paused, no roll, and a roll that completes. -/
theorem witness_roll_step :
    ((fired { rolling with setting := true } 8).pend = 0b1000 ∧ (fired { rolling with setting := true } 8).setting = true) ∧
    ((fired shown 8).pend = 0b1000 ∧ (fired shown 8).rolling = false) ∧
    (fired lastStep 8).pend = 0b1000 ∧ (fired lastStep 8).setting = false ∧ (fired lastStep 8).rolling = true ∧
    (fired lastStep 8).Inv :=
  ⟨⟨rfl, rfl⟩, ⟨rfl, rfl⟩, rfl, rfl, rfl, witness_inv_completing⟩

/-- RollStartsOnlyInTick: a roll started, a view change with the latch set, a roll completed. -/
theorem witness_roll_start :
    (∃ t, exec .tick { shown with view := .date } = .next t ∧ shown.rolling = false ∧ t.rolling = true) ∧
    (({ shown with view := .date } : State).view ≠ shown.lastView ∧ shown.setting = false ∧ shown.rollArm = true) ∧
    ∃ t, exec .dispatch (fired lastStep 8) = .next t ∧ (fired lastStep 8).rolling = true ∧ t.rolling = false :=
  ⟨⟨_, rfl, by decide⟩, by decide, ⟨_, rfl, by decide⟩⟩

/-- RollCompletionIsAnnounced. -/
theorem witness_roll_completion : (fired lastStep 8).Inv ∧ ∃ t, exec .dispatch (fired lastStep 8) = .next t ∧
    (fired lastStep 8).rolling = true ∧ t.rolling = false ∧
    t.strobes.count .rollDone ≠ (fired lastStep 8).strobes.count .rollDone :=
  ⟨witness_inv_completing, _, rfl, by decide⟩

/-- RollCompletesInExactlyNSteps, RollShowsEveryDigit: AN1, N = 19, and the first and last k below it. -/
theorem witness_whole_roll : rolling.Inv ∧ rolling.rolling = true ∧ rolling.setting = false ∧ rolling.overCount = 0 ∧
    10 + largestDistance rolling = 19 ∧ 0 < 10 + largestDistance rolling ∧ 18 < 10 + largestDistance rolling :=
  ⟨witness_inv_rolling, by decide⟩

/-- EveryRollCompletes: from OVER = 0, on each side of the floor (9 and 10), and where OVER is saturated. -/
theorem witness_any_roll : ∀ elapsed ∈ [(0 : BitVec 5), 9, 10, 31],
    ({ lastStep with overCount := elapsed } : State).Inv ∧ lastStep.rolling = true ∧ lastStep.setting = false ∧
      (9 < elapsed.toNat ↔ elapsed = 10 ∨ elapsed = 31) := by
  intro elapsed h
  refine ⟨⟨witness_inv_lastStep.bcd, witness_inv_lastStep.fields, witness_inv_lastStep.views,
    witness_inv_lastStep.phaseLegal, witness_inv_lastStep.stageLegal, witness_inv_lastStep.oneHot,
    fun h : lastStep.rolling = false => absurd h (by decide), witness_inv_lastStep.causeIdle, witness_inv_lastStep.causeLegal, witness_inv_lastStep.anodeDue,
    witness_inv_lastStep.cathDue⟩, rfl, rfl, ?_⟩
  revert elapsed
  decide

/-- SetModeFreezesTheRoll: commands of every kind that may move a roll or the buffer. -/
theorem witness_freeze : ({ rolling with setting := true } : State).setting = true ∧
    (∀ i ∈ [Instr.tick, .fire .d, .dispatch, .setview 0], ∀ b b', i ≠ .setctl b b') ∧
    ∀ i ∈ [Instr.tick, .fire .d, .dispatch, .setview 0], ∀ p d, i ≠ .wpair p d :=
  ⟨rfl, by simp, by simp⟩

/-- FirstFailingCheckIsRaised: each cause by a word of vector table 2.1, on a state with no fault; `witness_no_row`
has the words that are no command. -/
theorem witness_checks : shown.fault = false ∧ shown.cause = .none ∧
    ((0x43FF : Word).extractLsb' 12 4 = 4 ∧ (0x43FF : Word).extractLsb' 8 2 = 3) ∧
    ((0x5003 : Word).extractLsb' 12 4 = 5 ∧ (0x5003 : Word).extractLsb' 0 2 = 3) ∧
    ((0x7900 : Word).extractLsb' 12 4 = 7 ∧ 9 ≤ ((0x7900 : Word).extractLsb' 8 4).toNat) ∧
    ((0x419A : Word).extractLsb' 12 4 = 4 ∧ 9 < ((0x419A : Word).extractLsb' 0 4).toNat) ∧
    ((0x7564 : Word).extractLsb' 12 4 = 7 ∧ 99 < ((0x7564 : Word).extractLsb' 0 8).toNat) := by decide

/-- FaultsArePrecise: a word that is no command, a command that is refused, one that is not. -/
theorem witness_faults : (∀ i, decode 0xA000 ≠ .ok i) ∧ (Instr.setview 3).wellFormed = false ∧
    (Instr.setview 2).wellFormed = true ∧ Instr.setview 2 ≠ .clrerr ∧ ∃ t, exec (.setview 2) refused = .next t :=
  ⟨fun _ h => (by cases h), by decide, by decide, by decide, _, rfl⟩

/-- OnlyClrerrAndResetClearFault: by CLRERR and by RESET. -/
theorem witness_cleared :
    (∃ t, step { refused with presented := [.command 0x9000] } = .next t ∧ refused.fault = true ∧ t.fault = false) ∧
    ∃ t, step { refused with presented := [.reset] } = .next t ∧ refused.fault = true ∧ t.fault = false :=
  ⟨⟨_, rfl, by decide⟩, ⟨_, rfl, by decide⟩⟩

/-- CleanStatusAtTheEnd: a FIRE with nothing before it. -/
theorem witness_clean : (∀ i ∈ [Instr.fire .a, .dispatch], i ≠ .clrerr) ∧
    (∃ t, afterCommands [.fire .a, .dispatch] shown = .next t ∧ t.noneRefused ∧ t.noneMerged) ∧
    [Instr.fire .a, .dispatch] = [] ++ .fire .a :: [.dispatch] :=
  ⟨by simp, ⟨_, rfl, rfl, rfl⟩, rfl⟩

/-- StepKeepsInvariants. -/
theorem witness_step_inv : ({ anodeDue with presented := [.command 0x2000] } : State).Inv ∧
    ∃ t, step { anodeDue with presented := [.command 0x2000] } = .next t :=
  ⟨⟨by decide, by decide, by decide, by decide, by decide, ⟨.inr ⟨2, by decide⟩, .inl rfl⟩, by decide, by decide,
    by decide, by decide, by decide⟩, _, rfl⟩

/-- ReachableStatesMeetInvariants: two commands and a reset. -/
theorem witness_reachable : ∃ t, Host.Core.run Sys2Proof.core 3
    (State.resetPresenting [.command 0x1000, .command 0x2000, .reset]) = .next t := ⟨_, rfl⟩

/-- CommandsButFireAreIdempotent: a command that is no FIRE, and a FIRE. -/
theorem witness_idempotent : (∃ t, exec .dispatch (fired shown 9) = .next t) ∧ (∀ ch, Instr.dispatch ≠ .fire ch) ∧
    ∃ t, exec (.fire .d) shown = .next t := ⟨⟨_, rfl⟩, by simp, _, rfl⟩

/-- StrobesOfOneStep: a strobe, and read data. -/
theorem witness_outputs :
    (∃ t, step { fired shown 1 with presented := [.command 0x2000] } = .next t ∧ t.strobes ≠ []) ∧
    ∃ t, step { shown with presented := [.command 0x8000] } = .next t ∧ t.rdata ≠ none :=
  ⟨⟨_, rfl, by decide⟩, ⟨_, rfl, by decide⟩⟩

/-- FirstTickAndFirstPhaseAfterReset: commands that may come before. -/
theorem witness_after_reset :
    (∀ i ∈ [Instr.wpair 0 0x99, .fire .d, .dispatch, .rd .pair0], i ≠ .tick ∧ (∀ v, i ≠ .setview v) ∧
      (∀ f n, i ≠ .ldsrc f n) ∧ ∀ b b', i ≠ .setctl b b') ∧
    ∀ i ∈ [Instr.tick, .fire .b, .dispatch], i ≠ .fire .a :=
  ⟨by simp, by decide⟩

/-- DutyE3PreventsOverrun: a FIRE that keeps it. -/
theorem witness_duty_E3 : keepsE3 shown (.command 0x1000) = true ∧
    ({ shown with presented := [.command 0x1000] } : State).nextInput = .command 0x1000 ∧
    ∃ t, step { shown with presented := [.command 0x1000] } = .next t := ⟨by decide, rfl, _, rfl⟩

/-- DutiesKeepTheBlankingWindow: FIRE A when the phase is done, FIRE B when an occurrence is due. -/
theorem witness_duties_E1_E2 :
    (keepsE1 shown (.command 0x1000) = true ∧ keepsE2 shown (.command 0x1000) = true ∧
      (∃ t, step { shown with presented := [.command 0x1000] } = .next t)) ∧
    keepsE1 cathDue (.command 0x1001) = true ∧ keepsE2 cathDue (.command 0x1001) = true ∧
    (∃ t, step { cathDue with presented := [.command 0x1001] } = .next t) ∧
    (fired shown 1).pend.getLsbD 0 = true ∧ (fired shown 1).bStage = .idle ∧ (fired shown 1).pend.getLsbD 1 = false :=
  ⟨⟨by decide, by decide, _, rfl⟩, by decide, by decide, ⟨_, rfl⟩, by decide⟩

/-- DutyE7KeepsBlinkInSetMode: entering set mode with BLINK, and leaving it. -/
theorem witness_duty_E7 : keepsE7 shown (.command 0x6003) = true ∧
    keepsE7 { shown with setting := true, blink := true } (.command 0x6000) = true ∧
    ∃ t, step { shown with presented := [.command 0x6003] } = .next t ∧ t.blink = true :=
  ⟨by decide, by decide, _, rfl, rfl⟩

/-- DutifulRunsScanUndisturbed: FIRE A, DISPATCH, FIRE B. -/
theorem witness_dutiful :
    keepsDutiesFor 3 (State.resetPresenting [.command 0x1000, .command 0x2000, .command 0x1001]) ∧
    ∃ t, Host.Core.run Sys2Proof.core 3
      (State.resetPresenting [.command 0x1000, .command 0x2000, .command 0x1001]) = .next t :=
  ⟨⟨by decide, fun t h => by
    cases h
    exact ⟨by decide, fun t h => by
      cases h
      exact ⟨by decide, fun _ _ => trivial⟩⟩⟩, _, rfl⟩

/-- ScanIgnoresDisplayedData, RollIgnoresTheScan: two states that differ in what is displayed, two that differ in the
scan. -/
theorem witness_two_states :
    (∃ t t', exec .dispatch (fired shown 1) = .next t ∧ exec .dispatch (fired State.reset 1) = .next t' ∧
      shown.pair ≠ State.reset.pair ∧ shown.blink = State.reset.blink ∧ shown.phase = State.reset.phase ∧
      shown.bStage = State.reset.bStage ∧ shown.anode = State.reset.anode) ∧
    ∃ t t', exec .dispatch (fired shown 8) = .next t ∧ exec .dispatch (fired anodeDue 8) = .next t' ∧
      shown.cathode ≠ anodeDue.cathode ∧ shown.pair = anodeDue.pair ∧ shown.src = anodeDue.src ∧
      shown.view = anodeDue.view ∧ shown.lastView = anodeDue.lastView ∧ shown.setting = anodeDue.setting ∧
      shown.rolling = anodeDue.rolling ∧ shown.overCount = anodeDue.overCount :=
  ⟨⟨_, _, rfl, rfl, by decide⟩, ⟨_, _, rfl, rfl, by decide⟩⟩

end Sys2Proof.Tests
end

section
/-!
PROOF. The reset values of the registers (10_state.md R44).
-/

namespace Sys2Proof.Machine

/-- Settles O8: 10_state.md R44 read off the fields of `State.reset`, one row after the other. ROLL_ARM is no field: it
is 1 because ROLLING is 0, and the coded registers are compared by the codes 20_memory.md R66 reads back. -/
theorem resetValuesOfRegisters : Obligations.ResetValuesOfRegisters :=
  ⟨rfl, rfl,                   -- PAIR, SRC
    rfl, rfl, rfl, rfl,        -- VIEW, LAST_VIEW, BLINK, SETTING
    rfl, rfl, rfl, rfl,        -- PHASE, B_STAGE, CATHODE, ANODE
    rfl, rfl,                  -- PEND, OVR
    rfl, rfl, rfl,             -- ROLLING, ROLL_ARM, OVER
    rfl, rfl⟩                  -- FAULT, CAUSE

end Sys2Proof.Machine
end

section
/-!
PROOF. The register read map as numbers (20_memory.md R66): each image of `State.regRead` is the sum of its fields at
their bit positions.
-/

namespace Sys2Proof.Machine

/-! ### Images of one byte -/

theorem byte_image_toNat (b : Byte) : (b.zeroExtend 16).toNat = b.toNat :=
  BitVec.toNat_setWidth_of_le (by decide)

/-- The read map lists the latches by field code (10_state.md R24). -/
theorem latch_image_toNat (s : State) (f : Fin 9) :
    (s.src[f].zeroExtend 16).toNat = (s.src.toList.getD f.val 0).toNat := by
  have hget : s.src.toList.getD f.val 0 = s.src[f] := by simp
  rw [hget, byte_image_toNat]

/-! ### Images of several fields -/

theorem regRead_drive_toNat (s : State) :
    (s.regRead .drive).toNat = s.cathode.toNat * 2 ^ 6 + s.anode.toNat := append_toNat s.cathode s.anode

/-- PHASE fits its three bits because it is 0 to 5 (10_state.md R29). -/
theorem regRead_muxstat_toNat (s : State) :
    (s.regRead .muxstat).toNat =
      s.ovr.toNat * 2 ^ 12 + s.pend.toNat * 2 ^ 8 + s.bStage.code.toNat * 2 ^ 3 + s.phase.val := by
  have hphase : s.phase.val < 6 := s.phase.isLt
  simp only [State.regRead, append_toNat, BitVec.toNat_ofNat]
  omega

theorem regRead_rollstat_toNat (s : State) :
    (s.regRead .rollstat).toNat =
      s.setting.toNat * 2 ^ 13 + s.blink.toNat * 2 ^ 12 + s.view.code.toNat * 2 ^ 10 +
        s.lastView.code.toNat * 2 ^ 8 + (!s.rolling).toNat * 2 ^ 6 + s.rolling.toNat * 2 ^ 5 +
        s.overCount.toNat := by
  simp only [State.regRead, State.rollArm, append_toNat, BitVec.toNat_ofBool, BitVec.toNat_ofNat]
  omega

theorem regRead_faultstat_toNat (s : State) :
    (s.regRead .faultstat).toNat = s.fault.toNat * 2 ^ 15 + s.cause.code.toNat := by
  simp only [State.regRead, append_toNat, BitVec.toNat_ofBool, BitVec.toNat_ofNat]
  omega

/-! ### The whole map -/

/-- Settles O14: RD answers with `State.regRead`, and each image is the number 20_memory.md R66 gives its index. -/
theorem readMapImages : Obligations.ReadMapImages := by
  intro s r
  refine ⟨s.regRead r, rfl, ?_⟩
  cases r with
  | pair0 | pair1 | pair2 => exact byte_image_toNat _
  | drive => exact regRead_drive_toNat s
  | muxstat => exact regRead_muxstat_toNat s
  | rollstat => exact regRead_rollstat_toNat s
  | faultstat => exact regRead_faultstat_toNat s
  | tSec => exact latch_image_toNat s 0
  | tMin => exact latch_image_toNat s 1
  | tHour => exact latch_image_toNat s 2
  | dDay => exact latch_image_toNat s 3
  | dMonth => exact latch_image_toNat s 4
  | dYsuf => exact latch_image_toNat s 5
  | uSec => exact latch_image_toNat s 6
  | uMin => exact latch_image_toNat s 7
  | uHour => exact latch_image_toNat s 8

end Sys2Proof.Machine
end

section
/-!
PROOF. The opcode map row by row, and the words of no row (30_encoding.md R83, R84, R85, R88).
-/

namespace Sys2Proof.Machine

/-! ### The rows of the opcode map -/

/-- The defined opcodes in the order of 30_encoding.md R83. -/
def definedOpcodes : List Opcode :=
  [.nop, .fire, .dispatch, .tick, .wpair, .setview, .setctl, .ldsrc, .rd, .clrerr]

theorem mem_definedOpcodes (o : Opcode) : o ∈ definedOpcodes := by cases o <;> decide

/-- The table the statements speak of and the columns the decoder reads are the same. -/
theorem opcodeRows_eq_map : opcodeRows = definedOpcodes.map fun o => (o.pattern, o.mask) := rfl

theorem mem_opcodeRows_iff {row : Word × Word} : row ∈ opcodeRows ↔ ∃ o : Opcode, (o.pattern, o.mask) = row := by
  simp [opcodeRows_eq_map, mem_definedOpcodes]

/-- A word selects a row of the table exactly when it decodes (30_encoding.md R88). -/
theorem exists_row_iff_exists_decode_ok (w : Word) :
    (∃ row ∈ opcodeRows, w &&& row.2 = row.1) ↔ ∃ i, decode w = .ok i := by
  constructor
  · rintro ⟨row, hrow, hmatch⟩
    obtain ⟨o, rfl⟩ := mem_opcodeRows_iff.mp hrow
    exact ⟨instrOfFields o w, decode_of_match hmatch⟩
  · rintro ⟨i, hi⟩
    obtain ⟨o, hmatch, -⟩ := decode_ok_cases hi
    exact ⟨_, mem_opcodeRows_iff.mpr ⟨o, rfl⟩, hmatch⟩

/-! ### Words that are no command -/

theorem exists_decode_error_of_no_row {w : Word} (hrows : ∀ row ∈ opcodeRows, w &&& row.2 ≠ row.1) :
    ∃ reason, decode w = .error reason := by
  cases hw : decode w with
  | error reason => exact ⟨reason, rfl⟩
  | ok i =>
    obtain ⟨row, hrow, hmatch⟩ := (exists_row_iff_exists_decode_ok w).mpr ⟨i, hw⟩
    exact absurd hmatch (hrows row hrow)

theorem opcodeOfBits_reserved {op : BitVec 4} (h : 10 ≤ op.toNat) : opcodeOfBits op = none := by
  revert op
  decide

theorem decode_reservedOpcode {w : Word} (h : 10 ≤ (opcodeBits w).toNat) :
    decode w = .error .reservedOpcode := by
  rw [decode, opcodeOfBits_reserved h]

theorem illegalWordOnly_of_decode_error {w : Word} {reason : IllegalWord} (h : decode w = .error reason) :
    IllegalWordOnly w := by
  intro s
  rw [performWord, h, State.raise_eq_faulted]

/-! ### The statements -/

/-- Settles O2: a match fixes the row, so the command is `instrOfFields` of that row; the two named operands are given
by their codes. -/
theorem decodeFollowsOpcodeMap : Obligations.DecodeFollowsOpcodeMap := by
  intro w
  refine ⟨?nop, ?fire, ?dispatch, ?tick, ?wpair, ?setview, ?setctl, ?ldsrc, ?rd, ?clrerr,
    exists_decode_error_of_no_row⟩
  case nop => exact decode_of_match (o := .nop)
  case fire => exact fun h => ⟨_, decode_of_match (o := .fire) h, code_channelOfCode _⟩
  case dispatch => exact decode_of_match (o := .dispatch)
  case tick => exact decode_of_match (o := .tick)
  case wpair => exact decode_of_match (o := .wpair)
  case setview => exact decode_of_match (o := .setview)
  case setctl => exact decode_of_match (o := .setctl)
  case ldsrc => exact decode_of_match (o := .ldsrc)
  case rd => exact fun h => ⟨_, decode_of_match (o := .rd) h, code_readIndexOfCode _⟩
  case clrerr => exact decode_of_match (o := .clrerr)

/-- Settles O3: a reserved opcode and a word of no row are the decoder's two errors, and performing an error only
records ILLEGAL_CMD. -/
theorem illegalWordsOnlyRaiseIllegalCmd : Obligations.IllegalWordsOnlyRaiseIllegalCmd := by
  intro w
  refine ⟨fun hop => ?reserved, fun hrows => ?noRow, (exists_row_iff_exists_decode_ok w).mp⟩
  case reserved => exact illegalWordOnly_of_decode_error (decode_reservedOpcode hop)
  case noRow =>
    obtain ⟨reason, hreason⟩ := exists_decode_error_of_no_row hrows
    exact illegalWordOnly_of_decode_error hreason

end Sys2Proof.Machine
end

section
/-!
PROOF. The words of one defined opcode: a format is the opcode, the reserved bits below it, and the operand bits
(30_encoding.md R81), so a word is its row's command where the reserved bits are 0 and illegal where one of them is 1
(R85).
-/

namespace Sys2Proof.Machine

/-- How many low bits of a row's word carry operands; the bits from there up to the opcode are reserved
(30_encoding.md R81). -/
def operandWidth : Opcode → Nat
  | .nop | .dispatch | .tick | .clrerr => 0
  | .fire | .setview | .setctl => 2
  | .rd => 4
  | .wpair => 10
  | .ldsrc => 12

theorem mask_eq_shiftLeft_operandWidth (o : Opcode) : o.mask = BitVec.allOnes 16 <<< operandWidth o := by
  cases o <;> rfl

/-- A row's match and mask fix every bit but the operand bits. -/
theorem match_iff_div_eq (w : Word) (o : Opcode) :
    w &&& o.mask = o.pattern ↔ w.toNat / 2 ^ operandWidth o = o.pattern.toNat / 2 ^ operandWidth o := by
  rw [mask_eq_shiftLeft_operandWidth, ← BitVec.shiftLeft_ushiftRight, ← BitVec.toNat_inj]
  cases o <;> simp [operandWidth, Opcode.pattern, Nat.shiftRight_eq_div_pow, Nat.shiftLeft_eq] <;> omega

/-- Among the words of a row's opcode the row's own are those whose reserved bits are 0. -/
theorem match_iff_reserved_eq_zero {w : Word} {o : Opcode} (hop : opcodeBits w = opcodeBits o.pattern) :
    w &&& o.mask = o.pattern ↔ w.extractLsb' (operandWidth o) (12 - operandWidth o) = 0 := by
  have hw := w.isLt
  have hop' := congrArg BitVec.toNat hop
  rw [match_iff_div_eq, ← BitVec.toNat_inj]
  revert hop'
  cases o <;> simp [opcodeBits, operandWidth, Opcode.pattern, Nat.shiftRight_eq_div_pow] <;> omega

theorem illegalWordOnly_of_not_match {w : Word} {o : Opcode} (hop : opcodeBits w = opcodeBits o.pattern)
    (hm : w &&& o.mask ≠ o.pattern) : IllegalWordOnly w :=
  illegalWordOnly_of_decode_error (reason := .reservedBits) (by simp [decode, hop, opcodeOfBits_pattern, hm])

/-- Every word of a defined opcode: the row's command, or ILLEGAL_CMD where a reserved bit is set
(30_encoding.md R82, R85). -/
theorem words_of_opcode (o : Opcode) {w : Word} (hop : opcodeBits w = opcodeBits o.pattern) :
    (w.extractLsb' (operandWidth o) (12 - operandWidth o) = 0 → decode w = .ok (instrOfFields o w)) ∧
    (w.extractLsb' (operandWidth o) (12 - operandWidth o) ≠ 0 → IllegalWordOnly w) := by
  rw [Ne, ← match_iff_reserved_eq_zero hop]
  exact ⟨decode_of_match, illegalWordOnly_of_not_match hop⟩

end Sys2Proof.Machine
end

section
/-!
PROOF. TICK and the direct copy (40_display_buffer.md R110, R111).
-/

namespace Sys2Proof.Machine

/-! ### The answer of TICK, case by case -/

theorem execTick_of_setting {s : State} (hs : s.setting = true) : execTick s = .next s := by simp [execTick, hs]

theorem execTick_of_view_change {s : State} (hs : s.setting = false) (hv : s.view ≠ s.lastView) :
    execTick s = .next s.noteViewChange := by simp [execTick, hs, hv]

theorem execTick_of_rolling {s : State} (hs : s.setting = false) (hv : s.view = s.lastView)
    (hr : s.rolling = true) : execTick s = .next s := by simp [execTick, hs, hv, hr]

theorem execTick_of_no_roll {s : State} (hs : s.setting = false) (hv : s.view = s.lastView)
    (hr : s.rolling = false) : execTick s = .next s.directCopy := by simp [execTick, hs, hv, hr]

/-- A view change with the one-time roll latch set starts a roll (41_animation.md R143). -/
theorem noteViewChange_of_no_roll {s : State} (hr : s.rolling = false) :
    s.noteViewChange = { s with lastView := s.view, rolling := true, overCount := 0 } := by
  simp [State.noteViewChange, State.rollArm, hr]

/-- A view change during a roll is joined by that roll. -/
theorem noteViewChange_of_rolling {s : State} (hr : s.rolling = true) :
    s.noteViewChange = { s with lastView := s.view } := by
  simp [State.noteViewChange, State.rollArm, hr]

/-! ### The copied pairs -/

/-- The pairs a direct copy writes hold the decimal digits of the shown latches (00_scope.md R12, R14). -/
theorem digitOf_directCopy {s : State} (hf : ∀ f : Fin 9, s.src[f].toNat ≤ 99) (p : Fin 3) (k : Fin 2) :
    digitOf s.directCopy.pair[p] k = targetDigit s p k := by
  rw [State.directCopy_pair, targets_get, digitOf_target hf]

theorem viewOfCode_code (v : View) : viewOfCode v.code = some v := by cases v <;> rfl

theorem View.code_injective : Function.Injective View.code := fun v w h =>
  Option.some.inj (by rw [← viewOfCode_code v, h, viewOfCode_code w])

theorem directCopy_pair_of_code {s : State} (v : View) (hc : s.view.code = v.code) (p : Fin 3) :
    s.directCopy.pair[p] = toBCD s.src[fieldIndex v p] := by
  obtain rfl := View.code_injective hc
  rw [State.directCopy_pair, targets_get, State.target]

/-- One row of the table of 40_display_buffer.md R111: the row of the view whose code VIEW holds. -/
theorem directCopy_row {s : State} (v : View) (hc : s.view.code = v.code) :
    s.directCopy.pair[2] = toBCD s.src[fieldIndex v 2] ∧ s.directCopy.pair[1] = toBCD s.src[fieldIndex v 1] ∧
      s.directCopy.pair[0] = toBCD s.src[fieldIndex v 0] :=
  have hpair := directCopy_pair_of_code v hc
  ⟨hpair 2, hpair 1, hpair 0⟩

/-! ### The statements -/

/-- Settles O17: the cases of `execTick` one by one; the digits of a copied pair are those of its target. -/
theorem tickCopiesOrStartsRoll : Obligations.TickCopiesOrStartsRoll := by
  refine ⟨fun s => ⟨?held, ?starts, ?joins, ?rolling, ?copies⟩, fun w hop => words_of_opcode .tick hop⟩
  case held => exact execTick_of_setting
  case starts =>
    intro hs hv hr
    rw [exec_tick, execTick_of_view_change hs hv, noteViewChange_of_no_roll hr]
  case joins =>
    intro hs hv hr
    rw [exec_tick, execTick_of_view_change hs hv, noteViewChange_of_rolling hr]
  case rolling => exact execTick_of_rolling
  case copies =>
    intro hs hv hr
    exact ⟨s.directCopy, execTick_of_no_roll hs hv hr, rfl, digitOf_directCopy⟩

/-- Settles O18: with no roll and no view change TICK is the direct copy, and each view code selects its row of the
table. -/
theorem directCopyMapping : Obligations.DirectCopyMapping := by
  intro s hs hr hv
  exact ⟨s.directCopy, execTick_of_no_roll hs hv hr, directCopy_row .time, directCopy_row .date,
    directCopy_row .userData⟩

end Sys2Proof.Machine
end

section
/-!
PROOF. The commands that write one register of the display buffer and check an operand: WPAIR, SETVIEW and LDSRC
(40_display_buffer.md R112, R113, R114).
-/

namespace Sys2Proof.Machine

/-! ### WPAIR -/

theorem isBCD_eq_false_iff (d : Byte) : isBCD d = false ↔ 9 < d.toNat / 16 ∨ 9 < d.toNat % 16 := by
  rw [Bool.eq_false_iff, Ne, isBCD_iff]
  omega

theorem execWpair_three (d : Byte) (s : State) : execWpair 3 d s = .next (s.faulted .badPair) := rfl

theorem execWpair_of_not_bcd {p : BitVec 2} {d : Byte} (s : State) (hp : p ≠ 3) (hd : isBCD d = false) :
    execWpair p d s = .next (s.faulted .badBcd) := by
  obtain ⟨hp', -⟩ | ⟨-, -, h⟩ | ⟨-, -, -, hd', -⟩ := execWpair_cases p d s
  · exact absurd hp' hp
  · exact h
  · simp [hd] at hd'

theorem execWpair_of_legal {p : BitVec 2} {d : Byte} (s : State) (hp : p ≠ 3) (hd : isBCD d = true) :
    ∃ q : Fin 3, q.val = p.toNat ∧ execWpair p d s = .next (s.setPair q d) := by
  obtain ⟨hp', -⟩ | ⟨-, hd', -⟩ | ⟨q, hq, -, -, h⟩ := execWpair_cases p d s
  · exact absurd hp' hp
  · simp [hd] at hd'
  · exact ⟨q, hq, h⟩

/-- `PAIR[q] <- d` is a write of one pair (10_state.md R23). -/
theorem setPair_pair_get (s : State) (q r : Fin 3) (d : Byte) :
    (s.setPair q d).pair[r] = if r.val = q.val then d else s.pair[r] := by
  simp [Vector.getElem_set, eq_comm]

/-- Settles O20: the index check, the datum check, the write of one pair, and the words of opcode 4. -/
theorem wpairWritesOnePair : Obligations.WpairWritesOnePair := by
  refine ⟨fun p d s => ⟨?badPair, ?badBcd, ?legal⟩, fun w hop => words_of_opcode .wpair hop⟩
  case badPair =>
    rintro rfl
    exact execWpair_three d s
  case badBcd => exact fun hp hd => execWpair_of_not_bcd s hp ((isBCD_eq_false_iff d).2 hd)
  case legal =>
    intro hp hhi hlo
    obtain ⟨q, hq, h⟩ := execWpair_of_legal s hp ((isBCD_iff d).2 ⟨hlo, hhi⟩)
    exact ⟨s.setPair q d, h, rfl, fun r => hq ▸ setPair_pair_get s q r d⟩

/-! ### SETVIEW -/

theorem execSetview_three (s : State) : execSetview 3 s = .next (s.faulted .badView) := rfl

theorem execSetview_of_legal {v : BitVec 2} (s : State) (hv : v ≠ 3) :
    ∃ w : View, w.code = v ∧ execSetview v s = .next { s with view := w } := by
  obtain ⟨hv', -⟩ | ⟨w, hw, -, h⟩ := execSetview_cases v s
  · exact absurd hv' hv
  · exact ⟨w, hw, h⟩

/-- Settles O21: code 3 faults, another code is the view written, and the words of opcode 5. -/
theorem setviewWritesView : Obligations.SetviewWritesView := by
  refine ⟨fun v s => ⟨?badView, ?legal⟩, fun w hop => words_of_opcode .setview hop⟩
  case badView =>
    rintro rfl
    exact execSetview_three s
  case legal =>
    intro hv
    obtain ⟨w, hw, h⟩ := execSetview_of_legal s hv
    exact ⟨{ s with view := w }, h, rfl, hw⟩

/-! ### LDSRC -/

theorem execLdsrc_of_bad_field {f : BitVec 4} (n : Byte) (s : State) (hf : 9 ≤ f.toNat) :
    execLdsrc f n s = .next (s.faulted .badField) := by
  obtain ⟨-, h⟩ | ⟨hf', -⟩ | ⟨g, hg, -⟩ := execLdsrc_cases f n s
  · exact h
  · omega
  · omega

theorem execLdsrc_of_out_of_range {f : BitVec 4} {n : Byte} (s : State) (hf : f.toNat < 9) (hn : 99 < n.toNat) :
    execLdsrc f n s = .next (s.faulted .range) := by
  obtain ⟨hf', -⟩ | ⟨-, -, h⟩ | ⟨-, -, hn', -⟩ := execLdsrc_cases f n s
  · omega
  · exact h
  · omega

theorem execLdsrc_of_legal {f : BitVec 4} {n : Byte} (s : State) (hf : f.toNat < 9) (hn : n.toNat ≤ 99) :
    ∃ g : Fin 9, g.val = f.toNat ∧ execLdsrc f n s = .next (s.setSrc g n) := by
  obtain ⟨hf', -⟩ | ⟨-, hn', -⟩ | ⟨g, hg, -, h⟩ := execLdsrc_cases f n s
  · omega
  · omega
  · exact ⟨g, hg, h⟩

/-- `SRC[g] <- n` is a write of one latch. -/
theorem setSrc_src_get (s : State) (g r : Fin 9) (n : Byte) :
    (s.setSrc g n).src[r] = if r.val = g.val then n else s.src[r] := by
  simp [Vector.getElem_set, eq_comm]

/-- Settles O22: the index check, the datum check and the write of one latch. A word of opcode 7 has no reserved bits,
so the reserved field of its row is the empty bit vector and the word is a command. -/
theorem ldsrcLoadsOneLatch : Obligations.LdsrcLoadsOneLatch := by
  refine ⟨fun f n s => ⟨?badField, ?outOfRange, ?legal⟩, fun w hop => (words_of_opcode .ldsrc hop).1 ?noReserved⟩
  case badField => exact execLdsrc_of_bad_field n s
  case outOfRange => exact execLdsrc_of_out_of_range s
  case legal =>
    intro hf hn
    obtain ⟨g, hg, h⟩ := execLdsrc_of_legal s hf hn
    exact ⟨s.setSrc g n, h, rfl, fun r => hg ▸ setSrc_src_get s g r n⟩
  case noReserved => exact BitVec.eq_nil _

end Sys2Proof.Machine
end

section
/-!
PROOF. One roll step read on digits (41_animation.md R140, R141): the six nibbles it writes, and when they all stand at
their targets.
-/

namespace Sys2Proof.Machine

/-! ### Six digits are the buffer -/

theorem digitOf_injective {a b : Byte} (h : ∀ k : Fin 2, digitOf a k = digitOf b k) : a = b := by
  have h0 := h 0
  have h1 := h 1
  rw [digitOf_zero, digitOf_zero] at h0
  rw [digitOf_one, digitOf_one] at h1
  exact byte_ext (BitVec.eq_of_toNat_eq h0) (BitVec.eq_of_toNat_eq h1)

theorem pairs_eq_iff_digits {a b : Vector Byte 3} :
    a = b ↔ ∀ (p : Fin 3) (k : Fin 2), digitOf a[p] k = digitOf b[p] k := by
  constructor
  · rintro rfl p k
    rfl
  · intro h
    exact Vector.ext fun p hp => digitOf_injective (h ⟨p, hp⟩)

/-- The buffer stands at the targets when each of its digits is the one the view asks for (00_scope.md R12, R14). -/
theorem eq_targets_iff_digits {s : State} (hf : ∀ f : Fin 9, s.src[f].toNat ≤ 99) {pair : Vector Byte 3} :
    pair = s.targets ↔ ∀ (p : Fin 3) (k : Fin 2), digitOf pair[p] k = targetDigit s p k := by
  simp only [pairs_eq_iff_digits, targets_get, digitOf_target hf]

/-! ### The digits a roll step writes -/

theorem digitOf_rollPair (elapsed : BitVec 5) {b : Byte} (hb : (lo b).toNat ≤ 9 ∧ (hi b).toNat ≤ 9) (t : Byte)
    (k : Fin 2) :
    digitOf (rollPair elapsed b t) k =
      if 9 < elapsed.toNat ∧ digitOf b k = digitOf t k then digitOf b k else (digitOf b k + 1) % 10 := by
  match k with
  | 0 => simp only [digitOf_zero, rollPair, lo_mk, rollNibble_toNat hb.1]
  | 1 => simp only [digitOf_one, rollPair, hi_mk, rollNibble_toNat hb.2]

/-- The odometer hold rule on the whole buffer (41_animation.md R141). -/
theorem digitOf_rolledPairs {s : State} (hI : s.Inv) (p : Fin 3) (k : Fin 2) :
    digitOf s.rolledPairs[p] k =
      if 9 < s.overCount.toNat ∧ digitOf s.pair[p] k = targetDigit s p k then digitOf s.pair[p] k
      else (digitOf s.pair[p] k + 1) % 10 := by
  rw [rolledPairs_get, digitOf_rollPair _ (hI.bcd p), digitOf_target hI.fields]

/-! ### Completion -/

/-- The step a roll completes with: OVER, already counted, is past the floor, and the pairs just written are the
targets (41_animation.md R140). -/
def State.rollStepCompletes (s : State) : Prop :=
  9 < (overAfterStep s.overCount).toNat ∧ s.rolledPairs = s.targets

theorem rollStepCompletes_iff_digits {s : State} (hf : ∀ f : Fin 9, s.src[f].toNat ≤ 99) :
    s.rollStepCompletes ↔ 9 < min (s.overCount.toNat + 1) 31 ∧
      ∀ (p : Fin 3) (k : Fin 2), digitOf s.rolledPairs[p] k = targetDigit s p k := by
  rw [State.rollStepCompletes, overAfterStep_toNat, eq_targets_iff_digits hf]

end Sys2Proof.Machine
end

section
/-!
PROOF. What a DISPATCH does to the roll: the handlers of A, B and C leave the roll and the buffer alone and emit no
ROLL_DONE, so channel D decides (42_multiplexing.md R171, 41_animation.md R140).
-/

namespace Sys2Proof.Machine

/-! ### The services before channel D -/

/-- The state in which channel D is serviced. -/
def serviceABC (snapshot : BitVec 4) (s : State) : State :=
  service snapshot .c (service snapshot .b (service snapshot .a s))

theorem serviceAll_eq_service_d (snapshot : BitVec 4) (s : State) :
    serviceAll snapshot s = service snapshot .d (serviceABC snapshot s) := rfl

@[simp] theorem serviceABC_pair (snapshot : BitVec 4) (s : State) : (serviceABC snapshot s).pair = s.pair := by
  simp [serviceABC]

@[simp] theorem serviceABC_src (snapshot : BitVec 4) (s : State) : (serviceABC snapshot s).src = s.src := by
  simp [serviceABC]

@[simp] theorem serviceABC_view (snapshot : BitVec 4) (s : State) : (serviceABC snapshot s).view = s.view := by
  simp [serviceABC]

@[simp] theorem serviceABC_setting (snapshot : BitVec 4) (s : State) :
    (serviceABC snapshot s).setting = s.setting := by simp [serviceABC]

@[simp] theorem serviceABC_rolling (snapshot : BitVec 4) (s : State) :
    (serviceABC snapshot s).rolling = s.rolling := by simp [serviceABC]

@[simp] theorem serviceABC_overCount (snapshot : BitVec 4) (s : State) :
    (serviceABC snapshot s).overCount = s.overCount := by simp [serviceABC]

@[simp] theorem serviceABC_rolledPairs (snapshot : BitVec 4) (s : State) :
    (serviceABC snapshot s).rolledPairs = s.rolledPairs := by simp [State.rolledPairs, State.target]

@[simp] theorem serviceABC_targets (snapshot : BitVec 4) (s : State) :
    (serviceABC snapshot s).targets = s.targets := by simp [State.targets, State.target]

@[simp] theorem serviceABC_rollStepCompletes (snapshot : BitVec 4) (s : State) :
    (serviceABC snapshot s).rollStepCompletes ↔ s.rollStepCompletes := by simp [State.rollStepCompletes]

/-- With D alone pending nothing is serviced before it. -/
theorem serviceABC_of_only_d (s : State) : serviceABC 0b1000 s = s := rfl

/-! ### ROLL_DONE is channel D's -/

theorem handleA_count_rollDone (s : State) :
    (handleA s).strobes.count .rollDone = s.strobes.count .rollDone := by
  obtain ⟨-, h⟩ | ⟨-, h⟩ := handleA_cases s <;> simp [h]

theorem handleB_count_rollDone (s : State) :
    (handleB s).strobes.count .rollDone = s.strobes.count .rollDone := by
  obtain ⟨-, h⟩ | ⟨-, -, h⟩ | ⟨-, -, h⟩ | ⟨-, -, h⟩ := handleB_cases s <;> simp [h]

theorem handleC_count_rollDone (s : State) :
    (handleC s).strobes.count .rollDone = s.strobes.count .rollDone := by simp [handleC_eq]

theorem service_count_rollDone {ch : Channel} (hch : ch ≠ .d) (snapshot : BitVec 4) (s : State) :
    (service snapshot ch s).strobes.count .rollDone = s.strobes.count .rollDone := by
  rw [service_eq]
  split
  · cases ch with
    | a => exact handleA_count_rollDone s
    | b => exact handleB_count_rollDone s
    | c => exact handleC_count_rollDone s
    | d => exact absurd rfl hch
  · rfl

theorem serviceABC_count_rollDone (snapshot : BitVec 4) (s : State) :
    (serviceABC snapshot s).strobes.count .rollDone = s.strobes.count .rollDone := by
  simp [serviceABC, service_count_rollDone]

/-! ### What the four services do to the roll -/

/-- Everything servicing a snapshot can do to the roll: no roll step, the roll step that completes it, or one that does
not. -/
theorem serviceAll_roll_cases (snapshot : BitVec 4) (s : State) :
    ((channelSet snapshot .d = false ∨ s.setting = true ∨ s.rolling = false) ∧
      serviceAll snapshot s = serviceABC snapshot s) ∨
    (channelSet snapshot .d = true ∧ s.setting = false ∧ s.rolling = true ∧ s.rollStepCompletes ∧
      serviceAll snapshot s = (serviceABC snapshot s).advanceRoll.completeRoll) ∨
    (channelSet snapshot .d = true ∧ s.setting = false ∧ s.rolling = true ∧ ¬ s.rollStepCompletes ∧
      serviceAll snapshot s = (serviceABC snapshot s).advanceRoll) := by
  rw [serviceAll_eq_service_d]
  cases hd : channelSet snapshot .d with
  | false => exact .inl ⟨.inl rfl, service_of_not_set hd _⟩
  | true =>
    rw [service_of_set hd, ← serviceABC_setting snapshot s, ← serviceABC_rolling snapshot s,
      ← serviceABC_rollStepCompletes snapshot s]
    obtain ⟨hidle, h⟩ | ⟨hs, hr, hover, hpair, h⟩ | ⟨hs, hr, hmore, h⟩ := handleD_cases (serviceABC snapshot s)
    · exact .inl ⟨.inr hidle, h⟩
    · exact .inr (.inl ⟨rfl, hs, hr, ⟨hover, hpair⟩, h⟩)
    · exact .inr (.inr ⟨rfl, hs, hr, hmore, h⟩)

/-- Set mode pauses the roll (41_animation.md R148), and without one there is nothing to step. -/
theorem serviceAll_of_no_roll_step {snapshot : BitVec 4} {s : State}
    (hidle : s.setting = true ∨ s.rolling = false) : serviceAll snapshot s = serviceABC snapshot s := by
  obtain ⟨-, h⟩ | ⟨-, hs, hr, -⟩ | ⟨-, hs, hr, -⟩ := serviceAll_roll_cases snapshot s
  · exact h
  · simp [hs, hr] at hidle
  · simp [hs, hr] at hidle

theorem serviceAll_of_completing_step {snapshot : BitVec 4} {s : State} (hd : channelSet snapshot .d = true)
    (hs : s.setting = false) (hr : s.rolling = true) (hc : s.rollStepCompletes) :
    serviceAll snapshot s = (serviceABC snapshot s).advanceRoll.completeRoll := by
  obtain ⟨hidle, -⟩ | ⟨-, -, -, -, h⟩ | ⟨-, -, -, hnot, -⟩ := serviceAll_roll_cases snapshot s
  · simp [hd, hs, hr] at hidle
  · exact h
  · exact absurd hc hnot

theorem serviceAll_of_incomplete_step {snapshot : BitVec 4} {s : State} (hd : channelSet snapshot .d = true)
    (hs : s.setting = false) (hr : s.rolling = true) (hnot : ¬ s.rollStepCompletes) :
    serviceAll snapshot s = (serviceABC snapshot s).advanceRoll := by
  obtain ⟨hidle, -⟩ | ⟨-, -, -, hc, -⟩ | ⟨-, -, -, -, h⟩ := serviceAll_roll_cases snapshot s
  · simp [hd, hs, hr] at hidle
  · exact absurd hc hnot
  · exact h

/-- A roll step writes the buffer, whether it completes the roll or not. -/
theorem serviceAll_pair_of_roll_step {snapshot : BitVec 4} {s : State} (hd : channelSet snapshot .d = true)
    (hs : s.setting = false) (hr : s.rolling = true) : (serviceAll snapshot s).pair = s.rolledPairs := by
  by_cases hc : s.rollStepCompletes
  · simp [serviceAll_of_completing_step hd hs hr hc]
  · simp [serviceAll_of_incomplete_step hd hs hr hc]

/-- A DISPATCH starts no roll. -/
theorem serviceAll_rolling_of_no_roll (snapshot : BitVec 4) {s : State} (hr : s.rolling = false) :
    (serviceAll snapshot s).rolling = false := by
  rw [serviceAll_of_no_roll_step (.inr hr), serviceABC_rolling, hr]

/-- The services end a roll only by its completing step (41_animation.md R142). -/
theorem serviceAll_completes_roll {snapshot : BitVec 4} {s : State} (hr : s.rolling = true)
    (hdone : (serviceAll snapshot s).rolling = false) :
    channelSet snapshot .d = true ∧ s.setting = false ∧ s.rollStepCompletes ∧
      serviceAll snapshot s = (serviceABC snapshot s).advanceRoll.completeRoll := by
  obtain ⟨-, h⟩ | ⟨hd, hs, -, hc, h⟩ | ⟨-, -, -, -, h⟩ := serviceAll_roll_cases snapshot s
  · simp [h, hr] at hdone
  · exact ⟨hd, hs, hc, h⟩
  · simp [h, hr] at hdone

/-- The services emit ROLL_DONE only where they end a roll. -/
theorem serviceAll_count_rollDone_ne {snapshot : BitVec 4} {s : State}
    (hne : (serviceAll snapshot s).strobes.count .rollDone ≠ s.strobes.count .rollDone) :
    s.rolling = true ∧ (serviceAll snapshot s).rolling = false := by
  obtain ⟨-, h⟩ | ⟨-, -, hr, -, h⟩ | ⟨-, -, -, -, h⟩ := serviceAll_roll_cases snapshot s
  · exact absurd (by rw [h, serviceABC_count_rollDone]) hne
  · exact ⟨hr, by rw [h, State.completeRoll_rolling]⟩
  · exact absurd (by rw [h, State.advanceRoll_strobes, serviceABC_count_rollDone]) hne

/-! ### Which commands start, end and announce a roll -/

/-- Only TICK starts a roll (41_animation.md R143). -/
theorem effect_starts_roll {i : Instr} {s t : State} (h : Effect s i t) (hr : s.rolling = false)
    (ht : t.rolling = true) :
    i = .tick ∧ s.view ≠ s.lastView ∧ s.setting = false ∧
      t = { s with lastView := s.view, rolling := true, overCount := 0 } := by
  cases h with
  | tickStart hs hv => exact ⟨rfl, hv, hs, rfl⟩
  | dispatch =>
    have hnone := serviceAll_rolling_of_no_roll s.pend (s := { s with pend := 0 }) hr
    exact absurd (hnone.symm.trans ht) Bool.false_ne_true
  | _ => exact absurd (hr.symm.trans ht) Bool.false_ne_true

/-- Only DISPATCH ends a roll (41_animation.md R143). -/
theorem effect_ends_roll {i : Instr} {s t : State} (h : Effect s i t) (hr : s.rolling = true)
    (ht : t.rolling = false) : i = .dispatch ∧ t = serviceAll s.pend { s with pend := 0 } := by
  cases h with
  | dispatch => exact ⟨rfl, rfl⟩
  | tickStart => cases ht
  | _ => exact absurd (ht.symm.trans hr) Bool.false_ne_true

/-- Only a DISPATCH that ends a roll emits ROLL_DONE (41_animation.md R142). -/
theorem effect_count_rollDone_ne {i : Instr} {s t : State} (h : Effect s i t)
    (hne : t.strobes.count .rollDone ≠ s.strobes.count .rollDone) : s.rolling = true ∧ t.rolling = false := by
  cases h with
  | dispatch => exact serviceAll_count_rollDone_ne (s := { s with pend := 0 }) hne
  | _ => exact absurd rfl hne

end Sys2Proof.Machine
end

section
/-!
PROOF. The digit-rolling animation: one roll step, how a roll starts, and its completion (41_animation.md R140 to R143).
-/

namespace Sys2Proof.Machine

/-- Settles O37: with D alone pending the DISPATCH is one roll step, and the pairs it writes are `State.rolledPairs`. -/
theorem rollStepTurnsEveryNibble : Obligations.RollStepTurnsEveryNibble := by
  intro s hp
  rw [exec_dispatch, hp]
  refine ⟨fun hidle => ?paused, fun hs hr hI => ⟨s.rolledPairs, digitOf_rolledPairs hI, ?rolls⟩⟩
  case paused => rw [serviceAll_of_no_roll_step (s := { s with pend := 0 }) hidle, serviceABC_of_only_d]
  case rolls =>
    have hd : channelSet 0b1000 .d = true := rfl
    have hiff := rollStepCompletes_iff_digits hI.fields
    by_cases hc : s.rollStepCompletes
    · rw [if_pos (hiff.1 hc), serviceAll_of_completing_step (s := { s with pend := 0 }) hd hs hr hc,
        serviceABC_of_only_d]
      rfl
    · rw [if_neg (mt hiff.2 hc), serviceAll_of_incomplete_step (s := { s with pend := 0 }) hd hs hr hc,
        serviceABC_of_only_d]
      rfl

/-- Settles O38: only the effect of TICK on a view change starts a roll, only the effect of DISPATCH ends one, and TICK's
answer to a view change writes no pair. -/
theorem rollStartsOnlyInTick : Obligations.RollStartsOnlyInTick := by
  refine ⟨?onlyTick, ?starts, ?joins, ?noSnap, ?onlyDispatch⟩
  case onlyTick =>
    intro i s t h hr ht
    obtain ⟨hi, hv, hs, rfl⟩ := effect_starts_roll (exec_effect h) hr ht
    exact ⟨hi, hv, hs, by simp [State.rollArm, hr], rfl, rfl⟩
  case starts =>
    intro s hv hs harm
    have hr : s.rolling = false := by simpa [State.rollArm] using harm
    refine ⟨_, execTick_of_view_change hs hv, ?_⟩
    rw [noteViewChange_of_no_roll hr]
    exact ⟨rfl, rfl, rfl⟩
  case joins =>
    intro s hv hr
    cases hs : s.setting with
    | true => exact ⟨s, execTick_of_setting hs, hr, rfl⟩
    | false =>
      refine ⟨_, execTick_of_view_change hs hv, ?_⟩
      rw [noteViewChange_of_rolling hr]
      exact ⟨hr, rfl⟩
  case noSnap =>
    intro s t hv h
    cases exec_effect h with
    | tickCopy _ hv' => exact absurd hv' hv
    | tickHeld | tickStart | tickJoin | tickDuringRoll | refused => rfl
  case onlyDispatch =>
    intro i s t h hr ht
    exact ⟨(effect_ends_roll (exec_effect h) hr ht).1, by simp [State.rollArm, ht]⟩

/-- Settles O39: a roll ends in the completing step of a DISPATCH; a step past the floor that leaves every nibble at its
target is that step; and no other effect emits ROLL_DONE. -/
theorem rollCompletionIsAnnounced : Obligations.RollCompletionIsAnnounced := by
  intro i s t hI h
  have hiff := rollStepCompletes_iff_digits hI.fields
  have hpair (hd : channelSet s.pend .d = true) (hs : s.setting = false) (hr : s.rolling = true) :
      (serviceAll s.pend { s with pend := 0 }).pair = s.rolledPairs :=
    serviceAll_pair_of_roll_step (s := { s with pend := 0 }) hd hs hr
  refine ⟨fun hr ht => ?completion, ?completes, effect_count_rollDone_ne (exec_effect h)⟩
  case completion =>
    obtain ⟨rfl, rfl⟩ := effect_ends_roll (exec_effect h) hr ht
    obtain ⟨hd, hs, hc, hstate⟩ := serviceAll_completes_roll (s := { s with pend := 0 }) hr ht
    obtain ⟨hover, hdigits⟩ := hiff.1 hc
    rw [← hpair hd hs hr] at hdigits
    refine ⟨rfl, hs, hd, by omega, hdigits, ?_⟩
    rw [hstate]
    exact ⟨rfl, by simp, by simp [serviceABC_count_rollDone], by simp⟩
  case completes =>
    rintro rfl hd hr hs hover hdigits
    rw [exec_dispatch] at h
    cases h
    rw [hpair hd hs hr] at hdigits
    have hc := hiff.2 ⟨by omega, hdigits⟩
    rw [serviceAll_of_completing_step (s := { s with pend := 0 }) hd hs hr hc, State.completeRoll_rolling]

end Sys2Proof.Machine
end

section
/-!
PROOF. The flag functions bit by bit: the bit of a channel, and PEND and OVR after a firing (42_multiplexing.md R170).
-/

namespace Sys2Proof.Machine

theorem channelBit_getLsbD (ch : Channel) (k : Fin 4) :
    (channelBit ch).getLsbD k = (k.val == ch.code.toNat) := by
  cases ch <;> revert k <;> decide

theorem pendAfterFire_getLsbD (pend : BitVec 4) (ch : Channel) (k : Fin 4) :
    (pendAfterFire pend ch).getLsbD k = (pend.getLsbD k || k.val == ch.code.toNat) := by
  rw [pendAfterFire, BitVec.getLsbD_or, channelBit_getLsbD]

/-- Only the firing channel's own pending flag decides an overrun (42_multiplexing.md R170). -/
theorem ovrAfterFire_getLsbD (pend ovr : BitVec 4) (ch : Channel) (k : Fin 4) :
    (ovrAfterFire pend ovr ch).getLsbD k = (ovr.getLsbD k || (k.val == ch.code.toNat && pend.getLsbD k)) := by
  have hown : (k.val == ch.code.toNat && pend.getLsbD k) = (k.val == ch.code.toNat && channelSet pend ch) := by
    rw [channelSet]
    by_cases hk : k.val = ch.code.toNat
    · rw [hk]
    · rw [beq_eq_false_iff_ne.2 hk, Bool.false_and, Bool.false_and]
  rw [hown, ovrAfterFire]
  cases channelSet pend ch with
  | true => rw [if_pos rfl, BitVec.getLsbD_or, channelBit_getLsbD, Bool.and_true]
  | false => rw [if_neg Bool.false_ne_true, Bool.and_false, Bool.or_false]

/-- A channel's firing alone, in an empty PEND. -/
@[simp] theorem pendAfterFire_zero (ch : Channel) : pendAfterFire 0 ch = channelBit ch := BitVec.zero_or

/-- A firing that finds no flag pending is no overrun (42_multiplexing.md R178). -/
@[simp] theorem ovrAfterFire_zero (ovr : BitVec 4) (ch : Channel) : ovrAfterFire 0 ovr ch = ovr := by
  simp [ovrAfterFire, channelSet]

end Sys2Proof.Machine
end

section
/-!
PROOF. What servicing a snapshot comes to when at most one flag is set, and what the handlers of A and B do in each of
their cases (42_multiplexing.md R171 to R173).
-/

namespace Sys2Proof.Machine

/-- With nothing pending DISPATCH runs no handler. -/
@[simp] theorem serviceAll_zero (s : State) : serviceAll 0 s = s := rfl

/-- With one channel pending DISPATCH runs that channel's handler only. -/
theorem serviceAll_channelBit (ch : Channel) (s : State) : serviceAll (channelBit ch) s = handler ch s := by
  cases ch <;> rfl

theorem exec_dispatch_of_only {ch : Channel} {s : State} (hp : s.pend = channelBit ch) :
    exec .dispatch s = .next (handler ch { s with pend := 0 }) := by
  rw [exec_dispatch, hp, serviceAll_channelBit]

/-! ### Channel A -/

theorem handleA_of_blink {s : State} (hb : s.blink = true) :
    handleA s = { s with cathode := 0, anode := 0, phase := nextPhase s.phase, bStage := .idle } := by
  simpa [hb] using handleA_cases s

theorem handleA_of_no_blink {s : State} (hb : s.blink = false) :
    handleA s = { s with cathode := 0, anode := 0, phase := nextPhase s.phase, bStage := .cath,
                         strobes := s.strobes ++ [.armB] } := by
  simpa [hb] using handleA_cases s

/-- A always advances, also under BLINK (42_multiplexing.md R172). -/
theorem handleA_phase_val (s : State) : (handleA s).phase.val = (s.phase.val + 1) % 6 := by
  obtain ⟨-, h⟩ | ⟨-, h⟩ := handleA_cases s <;> rw [h] <;> rfl

/-! ### Channel B -/

theorem handleB_of_blink {s : State} (hb : s.blink = true) : handleB s = { s with bStage := .idle } := by
  simpa [hb] using handleB_cases s

/-- The firing with nothing due (42_multiplexing.md R180). -/
theorem handleB_of_idle {s : State} (hb : s.blink = false) (hst : s.bStage = .idle) : handleB s = s := by
  simpa [hb, hst] using handleB_cases s

/-- The first occurrence of channel B. -/
theorem handleB_of_cath {s : State} (hb : s.blink = false) (hst : s.bStage = .cath) :
    handleB s = { s with cathode := cathodePattern s.phaseDigit, bStage := .anode,
                         strobes := s.strobes ++ [.armB] } := by
  simpa [hb, hst] using handleB_cases s

/-- The second occurrence of channel B. -/
theorem handleB_of_anode {s : State} (hb : s.blink = false) (hst : s.bStage = .anode) :
    handleB s = { s with anode := anodeLine s.phase, bStage := .idle } := by
  simpa [hb, hst] using handleB_cases s

/-- The line of the digit that the selected position shows (42_multiplexing.md R175, R176). -/
theorem cathodePattern_phaseDigit {s : State} {d : Fin 10} (hd : digitAt s.pair s.phase = d.val) :
    cathodePattern s.phaseDigit = 1#10 <<< d.val := by
  have hdigit : s.phaseDigit.toNat = d.val := (phaseDigit_toNat s).trans hd
  rw [cathodePattern_of_digit (by omega), hdigit]

end Sys2Proof.Machine
end

section
/-!
PROOF. The multiplexing scheduler: FIRE, DISPATCH and the handlers of channels A, B and C (42_multiplexing.md R170 to
R174, R180).
-/

namespace Sys2Proof.Machine

/-- Settles O27: DISPATCH is `serviceAll` of the pending flags, whose four services are the four conditional handlers;
no handler writes PEND. -/
theorem dispatchClearsAndServicesInOrder : Obligations.DispatchClearsAndServicesInOrder := by
  refine ⟨fun s => ?inOrder, fun s hp => ?nothingPending, fun w hop => words_of_opcode .dispatch hop⟩
  case inOrder => exact ⟨_, _, _, _, rfl, rfl, rfl, rfl, exec_dispatch s, serviceAll_pend _ _⟩
  case nothingPending => rw [exec_dispatch, hp, serviceAll_zero, ← hp]

/-- Settles O30: B alone pending is the channel B handler on the cleared state, in each of its four cases. -/
theorem channelBShowsThePhaseDigit : Obligations.ChannelBShowsThePhaseDigit := by
  intro s hp
  rw [exec_dispatch_of_only (ch := .b) hp, handler]
  refine ⟨fun hb => ?blink, fun hb hst => ?idle, fun hb hst => ?cath, fun hb hst => ?anode⟩
  case blink => rw [handleB_of_blink (s := { s with pend := 0 }) hb]
  case idle => rw [handleB_of_idle (s := { s with pend := 0 }) hb hst]
  case cath =>
    refine ⟨_, rfl, ?_⟩
    rw [handleB_of_cath (s := { s with pend := 0 }) hb hst]
    exact ⟨rfl, fun d hd => cathodePattern_phaseDigit hd⟩
  case anode =>
    rw [handleB_of_anode (s := { s with pend := 0 }) hb hst]
    rfl

/-- Settles O26: the two flag functions bit by bit, and the words of opcode 1. -/
theorem fireRecordsTheFiring : Obligations.FireRecordsTheFiring := by
  refine ⟨fun ch s => ?fires, fun w hop => ?words⟩
  case fires =>
    exact ⟨_, rfl, rfl, fun k => ⟨pendAfterFire_getLsbD s.pend ch k, ovrAfterFire_getLsbD s.pend s.ovr ch k⟩⟩
  case words =>
    obtain ⟨hcommand, hillegal⟩ := words_of_opcode .fire hop
    exact ⟨fun hzero => ⟨_, hcommand hzero, code_channelOfCode _⟩, hillegal⟩

/-- Settles O29: A alone pending is the channel A handler on the cleared state, with and without BLINK. -/
theorem channelABlanksAndAdvances : Obligations.ChannelABlanksAndAdvances := by
  intro s hp
  refine ⟨_, exec_dispatch_of_only (ch := .a) hp, handleA_phase_val _, fun hb => ?blink, fun hb => ?armed⟩
  case blink => rw [handler, handleA_of_blink (s := { s with pend := 0 }) hb]
  case armed => rw [handler, handleA_of_no_blink (s := { s with pend := 0 }) hb]

/-- Settles O31: C alone pending is the channel C handler, which only emits. -/
theorem channelCPassesTheTickOn : Obligations.ChannelCPassesTheTickOn := by
  intro s hp
  rw [exec_dispatch_of_only (ch := .c) hp, handler, handleC_eq]

/-- Settles O32: FIRE B in an empty PEND is no overrun, and the DISPATCH after it runs the channel B handler alone,
which leaves a state with nothing due as it is. -/
theorem undueBFiringIsIgnored : Obligations.UndueBFiringIsIgnored := by
  intro s hb hst hp
  have hrun : afterCommands [.fire .b, .dispatch] s =
      .next { s with presented := [], strobes := [], rdata := none } := by
    rw [afterCommands_fire, afterCommands_dispatch, afterCommands_nil, hp, pendAfterFire_zero, ovrAfterFire_zero,
      serviceAll_channelBit, handler, handleB_of_idle, ← hp]
    · exact hb
    · exact hst
  exact ⟨_, hrun, rfl, rfl⟩

end Sys2Proof.Machine
end

section
/-!
PROOF. The control and access commands: NOP, SETCTL, RD and CLRERR (43_control.md R200, R201, R202, R203).
-/

namespace Sys2Proof.Machine

/-! ### The words below 0x1000 -/

/-- The words of NOP's opcode are those up to 0x0FFF (30_encoding.md R80, R83). -/
theorem opcodeBits_eq_nop_of_le {w : Word} (h : w.toNat ≤ 0x0FFF) : opcodeBits w = opcodeBits Opcode.nop.pattern := by
  apply BitVec.eq_of_toNat_eq
  simp [opcodeBits, Opcode.pattern, Nat.shiftRight_eq_div_pow]
  omega

/-- Below 0x1000 only NOP's own word has none of its reserved bits set (30_encoding.md R81). -/
theorem reserved_ne_zero_of_nop_range {w : Word} (hlo : 0x0001 ≤ w.toNat) (hhi : w.toNat ≤ 0x0FFF) :
    w.extractLsb' 0 12 ≠ 0 := by
  intro hzero
  have hmod : w.toNat % 2 ^ 12 = 0 := by simpa using congrArg BitVec.toNat hzero
  omega

/-! ### The statements -/

/-- Settles O11: NOP answers its own state, and a word from 0x0001 to 0x0FFF has NOP's opcode and a reserved bit
set. -/
theorem nopDoesNothing : Obligations.NopDoesNothing := by
  refine ⟨exec_nop, ?word, fun w hlo hhi => ?illegal⟩
  case word => exact decode_of_match (o := .nop) rfl
  case illegal =>
    exact (words_of_opcode .nop (opcodeBits_eq_nop_of_le hhi)).2 (reserved_ne_zero_of_nop_range hlo hhi)

/-- Settles O12: SETCTL is one update of two fields, and the words of opcode 6. -/
theorem setctlWritesSettingAndBlink : Obligations.SetctlWritesSettingAndBlink := by
  refine ⟨fun setting blink s => ?writes, fun w hop => words_of_opcode .setctl hop⟩
  case writes => exact ⟨{ s with setting := setting, blink := blink }, exec_setctl setting blink s, rfl, rfl, rfl⟩

/-- Settles O13: RD is `State.returnData` of the register image, which writes the read-data port alone, and the words
of opcode 8. -/
theorem rdReturnsReadDataOnly : Obligations.RdReturnsReadDataOnly := by
  refine ⟨fun r s => exec_rd r s, fun w hop => ?words⟩
  case words =>
    obtain ⟨hcommand, hillegal⟩ := words_of_opcode .rd hop
    exact ⟨fun hzero => ⟨_, hcommand hzero, code_readIndexOfCode _⟩, hillegal⟩

/-- Settles O16: CLRERR is `State.clearStatus`, one update of the three status fields, and the words of opcode 9. -/
theorem clrerrClearsStickyStatus : Obligations.ClrerrClearsStickyStatus := by
  refine ⟨fun s => ?clears, fun w hop => words_of_opcode .clrerr hop⟩
  case clears => exact ⟨s.clearStatus, exec_clrerr s, rfl, s.clearStatus_fault, rfl, s.clearStatus_ovr⟩

end Sys2Proof.Machine
end

section
/-!
PROOF. The checks a word passes through (60_exceptions.md R222, R223; 30_encoding.md R86): the first one that fails is
the cause it records, and a word that fails none leaves the record alone.
-/

namespace Sys2Proof.Machine

/-! ### The first failing check -/

/-- The cause of the first operand check a command fails, its index before its datum (60_exceptions.md R223);
`Cause.none` where it fails none. -/
def operandCause : Instr → Cause
  | .wpair p d => if p = 3 then .badPair else if isBCD d then .none else .badBcd
  | .setview v => if v = 3 then .badView else .none
  | .ldsrc f n => if 9 ≤ f.toNat then .badField else if 99 < n.toNat then .range else .none
  | _ => .none

/-- The cause of the first check a word fails: decoding, then its command's operands (60_exceptions.md R223). -/
def wordCause (w : Word) : Cause :=
  match decode w with
  | .ok i => operandCause i
  | .error _ => .illegalCmd

theorem wordCause_of_ok {w : Word} {i : Instr} (h : decode w = .ok i) : wordCause w = operandCause i := by
  rw [wordCause, h]

theorem wordCause_of_error {w : Word} {reason : IllegalWord} (h : decode w = .error reason) :
    wordCause w = .illegalCmd := by rw [wordCause, h]

/-- The operand checks are those of 30_encoding.md R86. -/
theorem operandCause_eq_none_iff (i : Instr) : operandCause i = .none ↔ i.wellFormed = true := by
  cases i with
  | wpair p d =>
    rw [Instr.wellFormed, Bool.and_eq_true, pairIndexLegal_iff, bcdLegal_eq, operandCause]
    split_ifs <;> simp_all
  | setview v =>
    rw [Instr.wellFormed, viewLegal_iff, operandCause]
    split_ifs <;> simp_all
  | ldsrc f n =>
    rw [Instr.wellFormed, Bool.and_eq_true, fieldLegal_iff, valueLegal_iff, operandCause]
    split_ifs <;> simp <;> omega
  | nop | fire | dispatch | tick | setctl | rd | clrerr => exact iff_of_true rfl rfl

/-! ### Refused: the state before plus the record -/

/-- A command that fails an operand check has no effect but the record (60_exceptions.md R222). -/
theorem exec_of_operandCause {i : Instr} (s : State) (h : operandCause i ≠ .none) :
    exec i s = .next (s.faulted (operandCause i)) := by
  cases i with
  | wpair p d =>
    rw [operandCause] at h ⊢
    split_ifs at h ⊢ with hp hd
    · rw [hp]
      exact execWpair_three d s
    · exact absurd rfl h
    · exact execWpair_of_not_bcd s hp (Bool.eq_false_of_not_eq_true hd)
  | setview v =>
    rw [operandCause] at h ⊢
    split_ifs at h ⊢ with hv
    · rw [hv]
      exact execSetview_three s
    · exact absurd rfl h
  | ldsrc f n =>
    rw [operandCause] at h ⊢
    split_ifs at h ⊢ with hf hn
    · exact execLdsrc_of_bad_field n s hf
    · exact execLdsrc_of_out_of_range s (Nat.lt_of_not_ge hf) hn
    · exact absurd rfl h
  | nop | fire | dispatch | tick | setctl | rd | clrerr => exact absurd rfl h

/-- A word that fails a check has no effect but the record (60_exceptions.md R222). -/
theorem performWord_of_wordCause {w : Word} (s : State) (h : wordCause w ≠ .none) :
    performWord w s = .next (s.faulted (wordCause w)) := by
  obtain ⟨i, hi, hperform⟩ | ⟨⟨reason, hr⟩, hperform⟩ := performWord_cases w s
  · rw [wordCause_of_ok hi] at h ⊢
    rw [hperform, exec_of_operandCause s h]
  · rw [hperform, wordCause_of_error hr, State.raise_eq_faulted]

/-! ### Accepted: the record as it was -/

/-- Of the commands that name no reserved value only CLRERR writes FAULT and CAUSE. -/
theorem effect_keeps_record {i : Instr} {s t : State} (h : Effect s i t) (hw : i.wellFormed = true)
    (hi : i ≠ .clrerr) : t.fault = s.fault ∧ t.cause = s.cause := by
  cases h with
  | refused _ _ hill => exact absurd (hw.symm.trans hill) Bool.noConfusion
  | clrerr => exact absurd rfl hi
  | dispatch => exact ⟨serviceAll_fault _ _, serviceAll_cause _ _⟩
  | _ => exact ⟨rfl, rfl⟩

/-- CLRERR is the word 0x9000 alone (30_encoding.md R83). -/
theorem eq_of_decode_clrerr {w : Word} (h : decode w = .ok .clrerr) : w = 0x9000 := by
  obtain ⟨o, hmatch, ho⟩ := decode_ok_cases h
  cases o with
  | clrerr => exact BitVec.and_allOnes.symm.trans hmatch
  | _ => cases ho

/-- A word that fails no check leaves the record alone; so does CLRERR's where nothing is recorded. -/
theorem performWord_keeps_record {w : Word} {s : State} (h : wordCause w = .none)
    (hclear : w = 0x9000 → s.fault = false ∧ s.cause = .none) :
    ∃ t, performWord w s = .next t ∧ t.fault = s.fault ∧ t.cause = s.cause := by
  obtain ⟨i, hi, hperform⟩ | ⟨⟨reason, hr⟩, -⟩ := performWord_cases w s
  · rw [wordCause_of_ok hi, operandCause_eq_none_iff] at h
    obtain ⟨t, ht, heffect⟩ := exec_has_effect i s
    refine ⟨t, hperform.trans ht, ?_⟩
    by_cases hc : i = .clrerr
    · subst hc
      obtain ⟨hfault, hcause⟩ := hclear (eq_of_decode_clrerr hi)
      rw [exec_clrerr] at ht
      cases ht
      exact ⟨hfault.symm, hcause.symm⟩
    · exact effect_keeps_record heffect h hc
  · rw [wordCause_of_error hr] at h
    cases h

/-! ### The checks read off the word -/

theorem lo_low_byte (w : Word) : lo (w.extractLsb' 0 8) = w.extractLsb' 0 4 := by
  rw [lo, BitVec.extractLsb'_extractLsb'_of_le (by decide)]

theorem hi_low_byte (w : Word) : hi (w.extractLsb' 0 8) = w.extractLsb' 4 4 := by
  rw [hi, BitVec.extractLsb'_extractLsb'_of_le (by decide)]

/-- WPAIR's datum check on the two nibbles of its word (30_encoding.md R81, R86). -/
theorem isBCD_low_byte (w : Word) :
    isBCD (w.extractLsb' 0 8) = true ↔ ¬(9 < (w.extractLsb' 4 4).toNat ∨ 9 < (w.extractLsb' 0 4).toNat) := by
  rw [isBCD, lo_low_byte, hi_low_byte, Bool.and_eq_true, decide_eq_true_iff, decide_eq_true_iff]
  omega

/-- The checks on the fields of a word, in the order of 60_exceptions.md R223. -/
theorem wordCause_eq_first_failing_check (w : Word) :
    wordCause w =
      if ∀ row ∈ opcodeRows, w &&& row.2 ≠ row.1 then .illegalCmd
      else if w.extractLsb' 12 4 = 4 ∧ w.extractLsb' 8 2 = 3 then .badPair
      else if w.extractLsb' 12 4 = 5 ∧ w.extractLsb' 0 2 = 3 then .badView
      else if w.extractLsb' 12 4 = 7 ∧ 9 ≤ (w.extractLsb' 8 4).toNat then .badField
      else if w.extractLsb' 12 4 = 4 ∧ (9 < (w.extractLsb' 4 4).toNat ∨ 9 < (w.extractLsb' 0 4).toNat) then .badBcd
      else if w.extractLsb' 12 4 = 7 ∧ 99 < (w.extractLsb' 0 8).toNat then .range
      else .none := by
  by_cases hrows : ∀ row ∈ opcodeRows, w &&& row.2 ≠ row.1
  · obtain ⟨reason, hr⟩ := exists_decode_error_of_no_row hrows
    rw [if_pos hrows, wordCause_of_error hr]
  · rw [if_neg hrows]
    push Not at hrows
    obtain ⟨row, hrow, hmatch⟩ := hrows
    obtain ⟨o, rfl⟩ := mem_opcodeRows_iff.1 hrow
    have hop : w.extractLsb' 12 4 = opcodeBits o.pattern := opcodeBits_of_match hmatch
    rw [wordCause_of_ok (decode_of_match hmatch), hop]
    -- The row's opcode leaves the checks of its own command; every other condition of the chain is false.
    cases o with
    | wpair | setview | ldsrc =>
      simp only [instrOfFields, operandCause, isBCD_low_byte, opcodeBits, Opcode.pattern, BitVec.reduceExtractLsb',
        BitVec.ofNat_eq_ofNat, BitVec.reduceEq, true_and, false_and, if_false, ite_not]
    | nop | fire | dispatch | tick | setctl | rd | clrerr => rfl

/-! ### The statements -/

/-- Settles O44: a word that fails a check records its cause where none is recorded, and a word that fails none, other
than CLRERR's, keeps the record. -/
theorem firstFailingCheckIsRaised : Obligations.FirstFailingCheckIsRaised := by
  refine ⟨fun w s hfault hw => ?recorded, fun w s hfault hcause => ?clean⟩
  case recorded =>
    by_cases h : wordCause w = .none
    · obtain ⟨t, ht, htf, htc⟩ := performWord_keeps_record (s := s) h fun hc => absurd hc hw
      exact ⟨t, ht, htf.trans hfault, htc⟩
    · exact ⟨_, performWord_of_wordCause s h, rfl, if_pos hfault⟩
  case clean =>
    rw [← wordCause_eq_first_failing_check]
    by_cases h : wordCause w = .none
    · obtain ⟨t, ht, htf, htc⟩ := performWord_keeps_record h fun _ => ⟨hfault, hcause⟩
      have htc' : t.cause = .none := htc.trans hcause
      exact ⟨t, ht, htc'.trans h.symm, by simp [htf, hfault, htc']⟩
    · have hc : (s.faulted (wordCause w)).cause = wordCause w := by simp [State.faulted, hfault]
      exact ⟨_, performWord_of_wordCause s h, hc, iff_of_true rfl (hc.trans_ne h)⟩

/-- Settles O45: the decoder's errors and the failing operand checks are refusals, and no other command but CLRERR
writes the record. -/
theorem faultsArePrecise : Obligations.FaultsArePrecise := by
  refine ⟨fun w s hnone => ?noCommand, fun i s hill => ?reserved, fun i s t hw hi h => ?legal⟩
  case noCommand =>
    obtain ⟨i, hi, -⟩ | ⟨⟨_, hr⟩, -⟩ := performWord_cases w s
    · exact absurd hi (hnone i)
    · exact illegalWordOnly_of_decode_error hr s
  case reserved =>
    have hc : operandCause i ≠ .none := by simp [operandCause_eq_none_iff, hill]
    exact ⟨operandCause i, hc, exec_of_operandCause s hc⟩
  case legal => exact effect_keeps_record (exec_effect h) hw hi

end Sys2Proof.Machine
end

section
/-!
PROOF. Decoding and encoding undo each other (30_encoding.md sections 1 and 2): a row's operand fields are disjoint and
make up the bits its mask leaves out.
-/

namespace Sys2Proof

/-! ### One field of a word -/

/-- The bits of the field at `offset` that is `width` bits wide (30_encoding.md R81). -/
def fieldMask (offset width : Nat) : Word := (BitVec.allOnes width).zeroExtend 16 <<< offset

/-- A field put back in its place holds the bits the word has there. -/
theorem shiftLeft_extractLsb' (w : Word) (offset width : Nat) :
    (w.extractLsb' offset width).zeroExtend 16 <<< offset = w &&& fieldMask offset width := by
  ext k hk
  by_cases hlow : k < offset
  · simp [fieldMask, hlow]
  · have hsum : offset + (k - offset) = k := by omega
    simp [fieldMask, hlow, hsum, Bool.and_comm, BitVec.getLsbD_eq_getElem hk]

/-- A field reads back where it was put. -/
theorem extractLsb'_shiftLeft {offset width : Nat} (hfit : offset + width ≤ 16) (f : BitVec width) :
    (f.zeroExtend 16 <<< offset : Word).extractLsb' offset width = f := by
  ext k hk
  have hk' : offset + k < 16 := by omega
  simp [hk', BitVec.getLsbD_eq_getElem hk]

theorem extractLsb'_zeroExtend {width : Nat} (hfit : width ≤ 16) (f : BitVec width) :
    (f.zeroExtend 16 : Word).extractLsb' 0 width = f := by
  simpa using extractLsb'_shiftLeft (offset := 0) (by omega) f

/-- A field is no part of what lies above its place. -/
theorem extractLsb'_zeroExtend_above {width offset : Nat} (h : width ≤ offset) (f : BitVec width) (n : Nat) :
    (f.zeroExtend 16 : Word).extractLsb' offset n = 0#n := by
  ext k hk
  have hbit : f.getLsbD (offset + k) = false := BitVec.getLsbD_of_ge _ _ (by omega)
  simp [hbit]

/-- A field is no part of what lies below its place. -/
theorem extractLsb'_shiftLeft_below {width offset n : Nat} (h : n ≤ offset) (f : BitVec width) :
    (f.zeroExtend 16 <<< offset : Word).extractLsb' 0 n = 0#n := by
  ext k hk
  have hk' : k < offset := by omega
  simp [hk']

/-- The format of WPAIR and LDSRC: a byte, and a field above it (30_encoding.md R81). -/
theorem extractLsb'_of_two_fields {width : Nat} (hfit : 8 + width ≤ 16) {c : Word}
    (hupper : c.extractLsb' 8 width = 0#width) (hlower : c.extractLsb' 0 8 = 0#8) (f : BitVec width) (d : Byte) :
    (c ||| (f.zeroExtend 16 <<< 8 ||| d.zeroExtend 16)).extractLsb' 8 width = f ∧
      (c ||| (f.zeroExtend 16 <<< 8 ||| d.zeroExtend 16)).extractLsb' 0 8 = d := by
  simp only [BitVec.extractLsb'_or, hupper, hlower, BitVec.zero_or, BitVec.or_zero, extractLsb'_shiftLeft hfit,
    extractLsb'_zeroExtend_above (Nat.le_refl 8), extractLsb'_shiftLeft_below (Nat.le_refl 8),
    extractLsb'_zeroExtend (show 8 ≤ 16 by decide), and_self]

/-! ### From the word to the command and back -/

@[simp] theorem opcode_instrOfFields (o : Opcode) (w : Word) : (instrOfFields o w).opcode = o := by cases o <;> rfl

theorem ofBool_getLsbD (w : Word) (k : Nat) : BitVec.ofBool (w.getLsbD k) = w.extractLsb' k 1 := by
  ext j hj
  obtain rfl : j = 0 := by omega
  simp

/-- The operand bits of a decoded command are the bits its row's mask leaves out. -/
theorem fieldBits_instrOfFields (o : Opcode) (w : Word) : (instrOfFields o w).fieldBits = w &&& ~~~o.mask := by
  have hlow (width : Nat) : (w.extractLsb' 0 width).zeroExtend 16 = w &&& fieldMask 0 width := by
    simpa using shiftLeft_extractLsb' w 0 width
  cases o with
  | nop | dispatch | tick | clrerr => exact (BitVec.and_zero (x := w)).symm
  | fire =>
    simp only [instrOfFields, Instr.fieldBits, code_channelOfCode, hlow]
    rfl
  | setview =>
    simp only [instrOfFields, Instr.fieldBits, hlow]
    rfl
  | rd =>
    simp only [instrOfFields, Instr.fieldBits, code_readIndexOfCode, hlow]
    rfl
  | wpair | ldsrc =>
    simp only [instrOfFields, Instr.fieldBits, shiftLeft_extractLsb', hlow, ← BitVec.and_or_distrib_left]
    rfl
  | setctl =>
    simp only [instrOfFields, Instr.fieldBits, ofBool_getLsbD, shiftLeft_extractLsb', hlow,
      ← BitVec.and_or_distrib_left]
    rfl

/-- The fields of a command's own word are its operands. -/
theorem instrOfFields_encode (i : Instr) : instrOfFields i.opcode (encode i) = i := by
  cases i with
  | nop | dispatch | tick | clrerr => rfl
  | fire ch => cases ch <;> rfl
  | rd r => cases r <;> rfl
  | setview v =>
    have hv : (encode (.setview v)).extractLsb' 0 2 = v := by
      have hpattern : Opcode.setview.pattern.extractLsb' 0 2 = 0#2 := rfl
      rw [encode, Instr.opcode, Instr.fieldBits, BitVec.extractLsb'_or, hpattern, BitVec.zero_or,
        extractLsb'_zeroExtend (by decide)]
    rw [Instr.opcode, instrOfFields, hv]
  | setctl s b => cases s <;> cases b <;> rfl
  | wpair p d =>
    obtain ⟨hp, hd⟩ := extractLsb'_of_two_fields (by decide) (c := Opcode.wpair.pattern) rfl rfl p d
    exact congrArg₂ Instr.wpair hp hd
  | ldsrc f n =>
    obtain ⟨hf, hn⟩ := extractLsb'_of_two_fields (by decide) (c := Opcode.ldsrc.pattern) rfl rfl f n
    exact congrArg₂ Instr.ldsrc hf hn

theorem encode_matches_row (i : Instr) : encode i &&& i.opcode.mask = i.opcode.pattern := by
  cases i with
  | nop => exact Laws.RowMatch.nop
  | fire ch => exact Laws.RowMatch.fire ch
  | dispatch => exact Laws.RowMatch.dispatch
  | tick => exact Laws.RowMatch.tick
  | wpair p d => exact Laws.RowMatch.wpair p d
  | setview v => exact Laws.RowMatch.setview v
  | setctl s b => exact Laws.RowMatch.setctl s b
  | ldsrc f n => exact Laws.RowMatch.ldsrc f n
  | rd r => exact Laws.RowMatch.rd r
  | clrerr => exact Laws.RowMatch.clrerr

/-! ### The statements -/

/-- Settles O1: each of the ten words equals its row's match under the row's mask, and the last two words are the
decoder's two errors. -/
theorem sampleWordsDecode : Obligations.SampleWordsDecode := by
  refine ⟨?nop, ?fire, ?dispatch, ?tick, ?wpair, ?setview, ?setctl, ?ldsrc, ?rd, ?clrerr, ?opcode, ?bits⟩
  case nop => exact decode_of_match (o := .nop) rfl
  case fire => exact decode_of_match (o := .fire) rfl
  case dispatch => exact decode_of_match (o := .dispatch) rfl
  case tick => exact decode_of_match (o := .tick) rfl
  case wpair => exact decode_of_match (o := .wpair) rfl
  case setview => exact decode_of_match (o := .setview) rfl
  case setctl => exact decode_of_match (o := .setctl) rfl
  case ldsrc => exact decode_of_match (o := .ldsrc) rfl
  case rd => exact decode_of_match (o := .rd) rfl
  case clrerr => exact decode_of_match (o := .clrerr) rfl
  case opcode => exact Machine.decode_reservedOpcode (by decide)
  case bits => rfl

/-- Settles O4: the word of a command matches the command's row, and its fields are the operands put there. -/
theorem decodeEncodeRoundTrip : Obligations.DecodeEncodeRoundTrip := by
  intro i
  rw [decode_of_match (encode_matches_row i), instrOfFields_encode]

/-- Settles O5: the mask fixes the row's bits, and the operands carry the rest. -/
theorem encodeDecodeRoundTrip : Obligations.EncodeDecodeRoundTrip := by
  intro w i h
  obtain ⟨o, hmatch, rfl⟩ := decode_ok_cases h
  rw [encode, opcode_instrOfFields, fieldBits_instrOfFields, ← hmatch, ← BitVec.and_or_distrib_left,
    BitVec.or_not_self, BitVec.and_allOnes]

end Sys2Proof
end

section
/-!
PROOF. toBCD as a number (00_scope.md R11, R12).
-/

namespace Sys2Proof.Machine

theorem byte_toNat (b : Byte) : b.toNat = 16 * (hi b).toNat + (lo b).toNat := by
  rw [hi_toNat, lo_toNat, Nat.div_add_mod]

/-- Settles O19: the two nibbles of toBCD are the tens and the units digit. -/
theorem toBCDPutsTensHigh : Obligations.ToBCDPutsTensHigh := by
  intro n hn
  rw [byte_toNat, hi_toBCD hn, lo_toBCD hn]

end Sys2Proof.Machine
end

section
/-!
PROOF. The invariants (a) to (k) of 10_state.md R43: they speak of the registers only, reset meets them, and every
command and every step keeps them.
-/

namespace Sys2Proof.Machine

/-! ### Registers -/

/-- The invariants speak of registers only: neither the ports nor what will be presented bears on them. -/
theorem State.Inv.of_sameRegisters {s t : State} (hI : s.Inv) (h : s.SameRegisters t) : t.Inv := by
  rw [h]
  exact { hI with }

theorem sameRegisters_consumed (s : State) : s.SameRegisters s.consumed := by
  obtain ⟨_, _, -, -, h⟩ | ⟨-, -, h⟩ := consumed_cases s <;> (rw [h]; rfl)

/-- Settles O48: the clauses one after the other on the reset values of 10_state.md R44. -/
theorem resetMeetsInvariants : Obligations.ResetMeetsInvariants where
  bcd := by decide
  fields := by decide
  views := by decide
  phaseLegal := by decide
  stageLegal := by decide
  oneHot := ⟨.inl rfl, .inl rfl⟩
  overIdle _ := rfl
  causeIdle _ := rfl
  causeLegal := by decide
  anodeDue h := by cases h
  cathDue h := by cases h

/-! ### Codes and lines -/

theorem View.code_le (v : View) : v.code.toNat ≤ 2 := by cases v <;> decide

theorem BStage.code_le (b : BStage) : b.code.toNat ≤ 2 := by cases b <;> decide

theorem Cause.code_le (c : Cause) : c.code.toNat ≤ 6 := by cases c <;> decide

theorem atMostOneLine_anodeLine (q : Fin 6) : atMostOneLine (anodeLine q) := .inr ⟨q, rfl⟩

theorem atMostOneLine_cathodePattern {d : Nibble} (h : d.toNat ≤ 9) : atMostOneLine (cathodePattern d) :=
  .inr ⟨⟨d.toNat, by omega⟩, cathodePattern_of_digit h⟩

/-- Every nibble of every pair is a digit: clause (a) of R43 alone. -/
def State.showsDigits (s : State) : Prop := ∀ p : Fin 3, (lo s.pair[p]).toNat ≤ 9 ∧ (hi s.pair[p]).toNat ≤ 9

/-- The selected position shows a digit. -/
theorem phaseDigit_le {s : State} (h : s.showsDigits) : s.phaseDigit.toNat ≤ 9 := by
  have hpair := h ⟨s.phase.val / 2, by omega⟩
  rw [State.phaseDigit, nib]
  split
  · exact hpair.1
  · exact hpair.2

/-! ### The handlers -/

theorem handleA_keeps_inv {s : State} (hI : s.Inv) : (handleA s).Inv := by
  obtain ⟨-, h⟩ | ⟨-, h⟩ := handleA_cases s <;> rw [h]
  · exact { hI with
      phaseLegal := Fin.is_le _, stageLegal := BStage.code_le _, oneHot := ⟨.inl rfl, .inl rfl⟩
      anodeDue := nofun
      cathDue := nofun }
  · exact { hI with
      phaseLegal := Fin.is_le _, stageLegal := BStage.code_le _, oneHot := ⟨.inl rfl, .inl rfl⟩
      anodeDue := nofun
      cathDue := fun _ => ⟨rfl, rfl⟩ }

theorem handleB_keeps_inv {s : State} (hI : s.Inv) : (handleB s).Inv := by
  obtain ⟨-, h⟩ | ⟨-, -, h⟩ | ⟨-, hcath, h⟩ | ⟨-, hanode, h⟩ := handleB_cases s <;> rw [h]
  · exact { hI with
      stageLegal := BStage.code_le _, anodeDue := nofun, cathDue := nofun }
  · exact hI
  · exact { hI with
      stageLegal := BStage.code_le _
      oneHot := ⟨atMostOneLine_cathodePattern (phaseDigit_le hI.bcd), hI.oneHot.2⟩
      anodeDue := fun _ => ⟨cathodePattern_ne_zero (phaseDigit_le hI.bcd), (hI.cathDue hcath).2⟩
      cathDue := nofun }
  · exact { hI with
      stageLegal := BStage.code_le _
      oneHot := ⟨hI.oneHot.1, atMostOneLine_anodeLine s.phase⟩
      anodeDue := nofun
      cathDue := nofun }

theorem rolledPairs_bcd {s : State} (hI : s.Inv) (p : Fin 3) :
    (lo s.rolledPairs[p]).toNat ≤ 9 ∧ (hi s.rolledPairs[p]).toNat ≤ 9 := by
  obtain ⟨hlo, hhi⟩ := hI.bcd p
  rw [rolledPairs_get, rollPair, lo_mk, hi_mk]
  exact ⟨rollNibble_le hlo _ _, rollNibble_le hhi _ _⟩

theorem handleD_keeps_inv {s : State} (hI : s.Inv) : (handleD s).Inv := by
  obtain ⟨-, h⟩ | ⟨-, -, -, -, h⟩ | ⟨-, hr, -, h⟩ := handleD_cases s <;> rw [h]
  · exact hI
  · exact { hI with
      bcd := rolledPairs_bcd hI, views := ⟨hI.views.1, hI.views.1⟩, overIdle := fun _ => rfl }
  · exact { hI with
      bcd := rolledPairs_bcd hI, overIdle := fun h => absurd (hr.symm.trans h) (by decide) }

theorem handler_keeps_inv (ch : Channel) {s : State} (hI : s.Inv) : (handler ch s).Inv := by
  cases ch with
  | a => exact handleA_keeps_inv hI
  | b => exact handleB_keeps_inv hI
  | c => exact hI.of_sameRegisters rfl
  | d => exact handleD_keeps_inv hI

theorem serviceAll_keeps_inv (snapshot : BitVec 4) {s : State} (hI : s.Inv) : (serviceAll snapshot s).Inv := by
  have hservice (ch : Channel) {u : State} (hu : u.Inv) : (service snapshot ch u).Inv := by
    rw [service_eq]
    split
    · exact handler_keeps_inv ch hu
    · exact hu
  exact hservice .d (hservice .c (hservice .b (hservice .a hI)))

/-! ### The commands -/

theorem targets_bcd {s : State} (hI : s.Inv) (p : Fin 3) :
    (lo s.targets[p]).toNat ≤ 9 ∧ (hi s.targets[p]).toNat ≤ 9 := by
  have h0 := targetDigit_lt s p 0
  have h1 := targetDigit_lt s p 1
  rw [targets_get, lo_target hI.fields, hi_target hI.fields]
  omega

theorem setPair_bcd {s : State} (hI : s.Inv) {d : Byte} (hd : isBCD d = true) (q p : Fin 3) :
    (lo (s.setPair q d).pair[p]).toNat ≤ 9 ∧ (hi (s.setPair q d).pair[p]).toNat ≤ 9 := by
  rw [setPair_pair_get]
  split
  · simpa [isBCD] using hd
  · exact hI.bcd p

theorem setSrc_fields {s : State} (hI : s.Inv) {n : Byte} (hn : n.toNat ≤ 99) (g f : Fin 9) :
    (s.setSrc g n).src[f].toNat ≤ 99 := by
  rw [setSrc_src_get]
  split
  · exact hn
  · exact hI.fields f

theorem faulted_keeps_inv {s : State} (hI : s.Inv) (c : Cause) : (s.faulted c).Inv :=
  { hI with causeIdle := nofun, causeLegal := Cause.code_le _ }

/-- Every command keeps the invariants. -/
theorem effect_keeps_inv {i : Instr} {s t : State} (h : Effect s i t) (hI : s.Inv) : t.Inv := by
  cases h with
  | nop | tickHeld | tickDuringRoll => exact hI
  | fire | setctl | rd => exact { hI with }
  | dispatch => exact serviceAll_keeps_inv s.pend { hI with }
  | tickStart => exact { hI with views := ⟨hI.views.1, hI.views.1⟩, overIdle := fun _ => rfl }
  | tickJoin => exact { hI with views := ⟨hI.views.1, hI.views.1⟩ }
  | tickCopy => exact { hI with bcd := targets_bcd hI }
  | refused _ c => exact faulted_keeps_inv hI c
  | wpair _ _ q _ _ hd => exact { hI with bcd := setPair_bcd hI hd q }
  | setview _ w => exact { hI with views := ⟨View.code_le w, hI.views.2⟩ }
  | ldsrc _ _ g _ _ hn => exact { hI with fields := setSrc_fields hI hn g }
  | clrerr => exact { hI with causeIdle := fun _ => rfl, causeLegal := Cause.code_le _ }

/-! ### Steps and runs -/

/-- Settles O49: a step performs RESET, a command or a word that is none on the state with its ports open. -/
theorem stepKeepsInvariants : Obligations.StepKeepsInvariants := by
  intro s t hI h
  have hI' : s.consumed.Inv := hI.of_sameRegisters (sameRegisters_consumed s)
  obtain ⟨-, rfl⟩ | ⟨_, _, -, -, heffect⟩ | ⟨_, _, -, -, rfl⟩ := performInput_effect h
  · exact resetMeetsInvariants.of_sameRegisters rfl
  · exact effect_keeps_inv heffect hI'
  · exact faulted_keeps_inv hI' .illegalCmd

/-- Settles O10: RESET answers, a word that is no command answers its record, and every command has an effect. -/
theorem everyStepGoesOn : Obligations.EveryStepGoesOn := by
  intro s
  rw [step]
  cases s.nextInput with
  | reset => exact ⟨_, rfl⟩
  | command w =>
    obtain ⟨i, -, h⟩ | ⟨-, h⟩ := performWord_cases w s.consumed
    · obtain ⟨t, ht, -⟩ := exec_has_effect i s.consumed
      exact ⟨t, h.trans ht⟩
    · exact ⟨_, h⟩

/-- What every step keeps holds at the end of every run. -/
theorem run_invariant {P : State → Prop} (hstep : ∀ s t, P s → step s = .next t → P t) (n : Nat) {s t : State}
    (hs : P s) (h : Host.Core.run Sys2Proof.core n s = .next t) : P t := by
  induction n generalizing s with
  | zero => cases h; exact hs
  | succ n ih =>
    obtain ⟨u, hu⟩ := everyStepGoesOn s
    rw [run_succ hu] at h
    exact ih (hstep s u hs hu) h

/-- Settles O50: reset meets the invariants whatever is presented, and every step keeps them. -/
theorem reachableStatesMeetInvariants : Obligations.ReachableStatesMeetInvariants := by
  intro is t h
  have hreset : (State.resetPresenting is).Inv := resetMeetsInvariants.of_sameRegisters rfl
  exact run_invariant stepKeepsInvariants is.length hreset h

end Sys2Proof.Machine
end

section
/-!
PROOF. Runs of a list of commands: one command peeled off, a run cut in two, and what every command of a list keeps.
-/

namespace Sys2Proof.Machine

/-! ### No command reads what will be presented -/

theorem execTick_starts_roll {s : State} (hs : s.setting = false) (hv : s.view ≠ s.lastView)
    (hr : s.rolling = false) :
    execTick s = .next { s with lastView := s.view, rolling := true, overCount := 0 } := by
  rw [execTick_of_view_change hs hv, noteViewChange_of_no_roll hr]

theorem execTick_joins_roll {s : State} (hs : s.setting = false) (hv : s.view ≠ s.lastView)
    (hr : s.rolling = true) : execTick s = .next { s with lastView := s.view } := by
  rw [execTick_of_view_change hs hv, noteViewChange_of_rolling hr]

theorem execTick_ignores_presented (s : State) (l : List Input) :
    ∃ t, execTick s = .next t ∧ execTick { s with presented := l } = .next { t with presented := l } := by
  obtain ⟨hs, h⟩ | ⟨hs, hv, hr, h⟩ | ⟨hs, hv, hr, h⟩ | ⟨hs, hv, hr, h⟩ | ⟨hs, hv, hr, h⟩ := execTick_cases s
  · exact ⟨s, h, execTick_of_setting hs⟩
  · exact ⟨_, h, execTick_starts_roll (s := { s with presented := l }) hs hv hr⟩
  · exact ⟨_, h, execTick_joins_roll (s := { s with presented := l }) hs hv hr⟩
  · exact ⟨s, h, execTick_of_rolling hs hv hr⟩
  · exact ⟨_, h, execTick_of_no_roll hs hv hr⟩

/-- No command reads what the environment will present (log 1). -/
theorem exec_ignores_presented {i : Instr} {s t : State} (h : exec i s = .next t) (l : List Input) :
    exec i { s with presented := l } = .next { t with presented := l } := by
  cases i with
  | nop | fire | setctl | rd | clrerr => cases h; rfl
  | dispatch =>
    rw [exec_dispatch] at h ⊢
    cases h
    rw [← serviceAll_ignores_presented]
  | tick =>
    obtain ⟨u, hu, hl⟩ := execTick_ignores_presented s l
    cases hu.symm.trans h
    exact hl
  | wpair p d =>
    cases h
    simp only [exec_wpair, execWpair]
    split <;> [rfl; split] <;> rfl
  | setview v =>
    cases h
    simp only [exec_setview, execSetview]
    split <;> rfl
  | ldsrc f n =>
    cases h
    simp only [exec_ldsrc, execLdsrc]
    split <;> [rfl; split] <;> rfl

/-! ### Peeling and cutting -/

/-- The first command of a list acts on the state with its ports open, and the rest runs from its answer. -/
theorem afterCommands_cons_of_exec {i : Instr} {s t : State} (h : exec i s.openPorts = .next t) (is : List Instr) :
    afterCommands (i :: is) s = afterCommands is t :=
  (afterCommands_cons (decodeEncodeRoundTrip i) (exec_ignores_presented h (presentation is)) rfl).trans rfl

/-- A list of commands runs from the state that the commands before it leave. -/
theorem afterCommands_append {is : List Instr} {s t : State} (h : afterCommands is s = .next t) (js : List Instr) :
    afterCommands (is ++ js) s = afterCommands js t := by
  induction is generalizing s with
  | nil => cases h; rfl
  | cons i is ih =>
    obtain ⟨u, hu, -⟩ := exec_has_effect i s.openPorts
    rw [afterCommands_cons_of_exec hu] at h
    rw [List.cons_append, afterCommands_cons_of_exec hu, ih h]

/-! ### What every command keeps -/

/-- A property of the registers that every command of a list keeps holds after the list. -/
theorem afterCommands_keeps {P : State → Prop} (hregs : ∀ u v : State, u.SameRegisters v → P u → P v)
    {is : List Instr} (hkeep : ∀ i ∈ is, ∀ u v, Effect u i v → P u → P v) {s : State} (hs : P s) :
    ∃ t, afterCommands is s = .next t ∧ P t := by
  induction is generalizing s with
  | nil => exact ⟨_, afterCommands_nil s, hregs s _ rfl hs⟩
  | cons i is ih =>
    obtain ⟨u, hu, heffect⟩ := exec_has_effect i s.openPorts
    have hP : P u := hkeep i List.mem_cons_self _ _ heffect (hregs s _ rfl hs)
    obtain ⟨t, ht, hPt⟩ := ih (fun j hj => hkeep j (List.mem_cons_of_mem i hj)) hP
    exact ⟨t, (afterCommands_cons_of_exec hu is).trans ht, hPt⟩

/-- Every run of commands ends. -/
theorem afterCommands_ends (is : List Instr) (s : State) : ∃ t, afterCommands is s = .next t := by
  obtain ⟨t, ht, -⟩ := afterCommands_keeps (P := fun _ => True) (fun _ _ _ h => h) (is := is) (fun _ _ _ _ _ h => h)
    (s := s) trivial
  exact ⟨t, ht⟩

end Sys2Proof.Machine
end

section
/-!
PROOF. What each command may write (10_state.md sections 1 to 6), and what a DISPATCH leaves alone.
-/

namespace Sys2Proof.Machine

/-! ### Writers -/

/-- The services write the buffer only by a roll step. -/
theorem serviceAll_pair_ne {snapshot : BitVec 4} {s : State} (hne : (serviceAll snapshot s).pair ≠ s.pair) :
    channelSet snapshot .d = true ∧ s.setting = false ∧ s.rolling = true := by
  obtain ⟨-, h⟩ | ⟨hd, hs, hr, -⟩ | ⟨hd, hs, hr, -⟩ := serviceAll_roll_cases snapshot s
  · exact absurd (by rw [h, serviceABC_pair]) hne
  · exact ⟨hd, hs, hr⟩
  · exact ⟨hd, hs, hr⟩

/-- Settles O23: of the effects only those of WPAIR, of TICK's direct copy and of DISPATCH write a pair, and a DISPATCH
does so by a roll step. -/
theorem writersOfTheBuffer : Obligations.WritersOfTheBuffer := by
  intro i s t h hne
  cases exec_effect h with
  | wpair p d => exact .inl ⟨p, d, rfl⟩
  | tickCopy hs hv hr => exact .inr (.inl ⟨hs, rfl, hr, hv⟩)
  | dispatch =>
    obtain ⟨hd, hs, hr⟩ := serviceAll_pair_ne (s := { s with pend := 0 }) hne
    exact .inr (.inr ⟨hs, rfl, hd, hr⟩)
  | _ => exact absurd rfl hne

/-- Settles O51: an effect writes the fields its constructor names; the frames of the four services are DISPATCH's. -/
theorem writersOfEachRegister : Obligations.WritersOfEachRegister := by
  intro i s t h
  cases exec_effect h with
  | dispatch => simp
  | refused _ _ hill => simp [State.faulted, hill]
  | _ => simp

/-! ### The frame of DISPATCH -/

@[simp] theorem serviceABC_lastView (snapshot : BitVec 4) (s : State) :
    (serviceABC snapshot s).lastView = s.lastView := by simp [serviceABC]

/-- Without D pending a DISPATCH is what the services of A, B and C do. -/
theorem serviceAll_of_not_d {snapshot : BitVec 4} (hd : channelSet snapshot .d = false) (s : State) :
    serviceAll snapshot s = serviceABC snapshot s := service_of_not_set hd _

theorem serviceAll_phase_of_not_a {snapshot : BitVec 4} (ha : channelSet snapshot .a = false) (s : State) :
    (serviceAll snapshot s).phase = s.phase := by
  simp [serviceAll, service_of_not_set ha]

/-- Only the handlers of A and B drive the lines. -/
theorem serviceAll_lines_of_not_ab {snapshot : BitVec 4} (ha : channelSet snapshot .a = false)
    (hb : channelSet snapshot .b = false) (s : State) :
    (serviceAll snapshot s).bStage = s.bStage ∧ (serviceAll snapshot s).cathode = s.cathode ∧
      (serviceAll snapshot s).anode = s.anode := by
  simp [serviceAll, service_of_not_set ha, service_of_not_set hb]

/-- Settles O28: the frames of the four services, and a service whose flag is not pending is none. -/
theorem dispatchFrame : Obligations.DispatchFrame := by
  intro s t h
  rw [exec_dispatch] at h
  cases h
  refine ⟨?frame, fun ha => ?noA, fun ha hb => ?noAB, fun hd => ?noD, fun hp => ?nothing⟩
  case frame => ext <;> simp
  case noA => exact serviceAll_phase_of_not_a ha _
  case noAB => exact serviceAll_lines_of_not_ab ha hb _
  case noD => simp [serviceAll_of_not_d (snapshot := s.pend) hd]
  case nothing => rw [hp, serviceAll_zero]

end Sys2Proof.Machine
end

section
/-!
PROOF. The flags of a channel after a firing, read channel by channel (42_multiplexing.md R170, R178).
-/

namespace Sys2Proof.Machine

theorem channelSet_zero (ch : Channel) : channelSet 0 ch = false := by cases ch <;> rfl

theorem channelSet_or (flags flags' : BitVec 4) (ch : Channel) :
    channelSet (flags ||| flags') ch = (channelSet flags ch || channelSet flags' ch) := BitVec.getLsbD_or

theorem channelSet_channelBit (ch ch' : Channel) : channelSet (channelBit ch) ch' = decide (ch' = ch) := by
  cases ch <;> cases ch' <;> rfl

@[simp] theorem channelSet_pendAfterFire_self (pend : BitVec 4) (ch : Channel) :
    channelSet (pendAfterFire pend ch) ch = true := by
  simp [pendAfterFire, channelSet_or, channelSet_channelBit]

theorem channelSet_pendAfterFire_of_ne {ch ch' : Channel} (h : ch' ≠ ch) (pend : BitVec 4) :
    channelSet (pendAfterFire pend ch) ch' = channelSet pend ch' := by
  simp [pendAfterFire, channelSet_or, channelSet_channelBit, h]

theorem ovrAfterFire_of_not_pending {pend : BitVec 4} {ch : Channel} (h : channelSet pend ch = false) (ovr : BitVec 4) :
    ovrAfterFire pend ovr ch = ovr := by simp [ovrAfterFire, h]

theorem ovrAfterFire_of_pending {pend : BitVec 4} {ch : Channel} (h : channelSet pend ch = true) (ovr : BitVec 4) :
    ovrAfterFire pend ovr ch = ovr ||| channelBit ch := by simp [ovrAfterFire, h]

/-- A firing that meets its own flag is an overrun (42_multiplexing.md R178). -/
theorem channelSet_ovrAfterFire_of_pending {pend : BitVec 4} {ch : Channel} (h : channelSet pend ch = true)
    (ovr : BitVec 4) : channelSet (ovrAfterFire pend ovr ch) ch = true := by
  simp [ovrAfterFire_of_pending h, channelSet_or, channelSet_channelBit]

/-- A firing clears no overrun. -/
theorem channelSet_ovrAfterFire_of_set {ovr : BitVec 4} {ch : Channel} (h : channelSet ovr ch = true)
    (pend : BitVec 4) (ch' : Channel) : channelSet (ovrAfterFire pend ovr ch') ch = true := by
  rw [ovrAfterFire]
  split
  · rw [channelSet_or, h, Bool.true_or]
  · exact h

end Sys2Proof.Machine
end

section
/-!
PROOF. Every command but FIRE is idempotent (20_memory.md R65).
-/

namespace Sys2Proof.Machine

/-- A fault on a recorded fault changes nothing (60_exceptions.md R222). -/
theorem faulted_of_fault {s : State} (h : s.fault = true) (c : Cause) : s.faulted c = s := by
  ext <;> simp [State.faulted, h]

/-- A command but FIRE, performed again, leaves the state it left. -/
theorem exec_of_effect {i : Instr} {s t : State} (h : Effect s i t) (hi : ∀ ch, i ≠ .fire ch) :
    exec i t = .next t := by
  obtain ⟨u, hu, hagain⟩ := exec_has_effect i t
  cases h with
  | nop | setctl | rd | clrerr => rfl
  | fire ch => exact absurd rfl (hi ch)
  | dispatch =>
    have hp : (serviceAll s.pend { s with pend := 0 }).pend = 0 := serviceAll_pend _ _
    exact dispatchClearsAndServicesInOrder.2.1 _ hp
  | tickHeld hs => exact execTick_of_setting hs
  | tickStart hs => exact execTick_of_rolling hs rfl rfl
  | tickJoin hs _ hr => exact execTick_of_rolling hs rfl hr
  | tickDuringRoll hs hv hr => exact execTick_of_rolling hs hv hr
  | tickCopy hs hv hr => exact execTick_of_no_roll hs hv hr
  | refused _ c hill =>
    obtain ⟨c', -, h⟩ := faultsArePrecise.2.1 i (s.faulted c) hill
    rw [h, faulted_of_fault rfl]
  | wpair p d q hq hw =>
    cases hagain with
    | refused _ _ hill => exact absurd (hw.symm.trans hill) Bool.noConfusion
    | wpair _ _ q' hq' =>
      obtain rfl : q' = q := Fin.ext (hq'.trans hq.symm)
      rw [hu, Vector.set_set]
  | setview v w hv hw =>
    cases hagain with
    | refused _ _ hill => exact absurd (hw.symm.trans hill) Bool.noConfusion
    | setview _ w' hv' =>
      obtain rfl : w' = w := View.code_injective (hv'.trans hv.symm)
      exact hu
  | ldsrc f n g hg hw =>
    cases hagain with
    | refused _ _ hill => exact absurd (hw.symm.trans hill) Bool.noConfusion
    | ldsrc _ _ g' hg' =>
      obtain rfl : g' = g := Fin.ext (hg'.trans hg.symm)
      rw [hu, Vector.set_set]

/-- Settles O52: performed again, a command but FIRE answers the state it is performed on; a second FIRE finds its own
flag pending. -/
theorem commandsButFireAreIdempotent : Obligations.CommandsButFireAreIdempotent := by
  intro i s t h
  have heffect := exec_effect h
  by_cases hfire : ∃ ch, i = .fire ch
  · obtain ⟨ch, rfl⟩ := hfire
    refine ⟨_, rfl, fun hno => absurd rfl (hno ch), ?_⟩
    rintro _ ⟨⟩
    cases heffect with
    | fire => exact channelSet_ovrAfterFire_of_pending (channelSet_pendAfterFire_self s.pend ch) _
    | refused _ _ hill => cases hill
  · push Not at hfire
    exact ⟨t, exec_of_effect heffect hfire, fun _ => ⟨rfl, rfl, rfl⟩, fun ch hch => absurd hch (hfire ch)⟩

end Sys2Proof.Machine
end

section
/-!
PROOF. One step: the command its input carries and what the step can put out (10_state.md R40, R41; 60_exceptions.md
R224).
-/

namespace Sys2Proof.Machine

/-! ### The state in which an input is performed -/

@[simp] theorem consumed_pend (s : State) : s.consumed.pend = s.pend := by rw [State.consumed]; split <;> rfl
@[simp] theorem consumed_ovr (s : State) : s.consumed.ovr = s.ovr := by rw [State.consumed]; split <;> rfl
@[simp] theorem consumed_bStage (s : State) : s.consumed.bStage = s.bStage := by rw [State.consumed]; split <;> rfl
@[simp] theorem consumed_blink (s : State) : s.consumed.blink = s.blink := by rw [State.consumed]; split <;> rfl
@[simp] theorem consumed_setting (s : State) : s.consumed.setting = s.setting := by rw [State.consumed]; split <;> rfl
@[simp] theorem consumed_fault (s : State) : s.consumed.fault = s.fault := by rw [State.consumed]; split <;> rfl
@[simp] theorem consumed_strobes (s : State) : s.consumed.strobes = [] := by rw [State.consumed]; split <;> rfl
@[simp] theorem consumed_rdata (s : State) : s.consumed.rdata = none := by rw [State.consumed]; split <;> rfl

/-- Everything a step can do: RESET, the command whose word is consumed, or the record of a word that is none. -/
theorem step_cases {s t : State} (h : step s = .next t) :
    (s.nextInput = .reset ∧ t = s.consumed.applyReset) ∨
    (∃ i, s.nextInput = .command (encode i) ∧ Effect s.consumed i t) ∨
    (∃ w reason, s.nextInput = .command w ∧ decode w = .error reason ∧ t = s.consumed.faulted .illegalCmd) := by
  obtain ⟨hi, ht⟩ | ⟨w, i, hi, hw, heffect⟩ | ⟨w, reason, hi, hw, ht⟩ := performInput_effect h
  · exact .inl ⟨hi, ht⟩
  · exact .inr (.inl ⟨i, by rw [hi, encodeDecodeRoundTrip w i hw], heffect⟩)
  · exact .inr (.inr ⟨w, reason, hi, hw, ht⟩)

/-- CLRERR alone clears a recorded fault (60_exceptions.md R224). -/
theorem effect_keeps_fault {i : Instr} {s t : State} (h : Effect s i t) (hi : i ≠ .clrerr) (hs : s.fault = true) :
    t.fault = true := by
  cases h with
  | clrerr => exact absurd rfl hi
  | refused => rfl
  | dispatch => exact (serviceAll_fault _ _).trans hs
  | _ => exact hs

/-- Settles O46: every effect but CLRERR's leaves a recorded fault recorded, and CLRERR's word is 0x9000. -/
theorem onlyClrerrAndResetClearFault : Obligations.OnlyClrerrAndResetClearFault := by
  intro s t h hs ht
  obtain ⟨hi, -⟩ | ⟨i, hi, heffect⟩ | ⟨_, _, -, -, rfl⟩ := step_cases h
  · exact .inl hi
  · by_cases hc : i = .clrerr
    · exact .inr (by rw [hi, hc]; rfl)
    · have hkept := effect_keeps_fault heffect hc ((consumed_fault s).trans hs)
      exact absurd (ht.symm.trans hkept) Bool.false_ne_true
  · cases ht

/-- The word of a command carries that command (30_encoding.md sections 1 and 2). -/
theorem commandOf_encode (i : Instr) : commandOf (.command (encode i)) = some i := by
  rw [commandOf, decodeEncodeRoundTrip]
  rfl

/-! ### Strobes and read data -/

/-- The strobe a channel's handler may emit (42_multiplexing.md R172 to R174, 41_animation.md R142). -/
def channelStrobe : Channel → Strobe
  | .a | .b => .armB
  | .c => .cTick
  | .d => .rollDone

theorem handler_strobes (ch : Channel) (s : State) :
    (handler ch s).strobes = s.strobes ∨ (handler ch s).strobes = s.strobes ++ [channelStrobe ch] := by
  cases ch with
  | a =>
    obtain ⟨-, h⟩ | ⟨-, h⟩ := handleA_cases s
    · exact .inl (by rw [handler, h])
    · exact .inr (by rw [handler, h]; rfl)
  | b =>
    obtain ⟨-, h⟩ | ⟨-, -, h⟩ | ⟨-, -, h⟩ | ⟨-, -, h⟩ := handleB_cases s
    · exact .inl (by rw [handler, h])
    · exact .inl (by rw [handler, h])
    · exact .inr (by rw [handler, h]; rfl)
    · exact .inl (by rw [handler, h])
  | c => exact .inr rfl
  | d =>
    obtain ⟨-, h⟩ | ⟨-, -, -, -, h⟩ | ⟨-, -, -, h⟩ := handleD_cases s
    · exact .inl (by rw [handler, h])
    · exact .inr (by rw [handler, h]; rfl)
    · exact .inl (by rw [handler, h])

/-- A service emits its channel's strobe at most once. -/
theorem service_strobes (snapshot : BitVec 4) (ch : Channel) (s : State) :
    ∃ n ≤ 1, (service snapshot ch s).strobes = s.strobes ++ List.replicate n (channelStrobe ch) := by
  have hnone : s.strobes = s.strobes ++ List.replicate 0 (channelStrobe ch) := (List.append_nil _).symm
  rw [service_eq]
  split
  · obtain h | h := handler_strobes ch s
    · exact ⟨0, Nat.zero_le 1, h.trans hnone⟩
    · exact ⟨1, Nat.le_refl 1, h⟩
  · exact ⟨0, Nat.zero_le 1, hnone⟩

/-- The strobes of a DISPATCH, in the order of the handlers. -/
theorem serviceAll_strobes (snapshot : BitVec 4) (s : State) :
    ∃ armBs cTicks rollDones : Nat, armBs ≤ 2 ∧ cTicks ≤ 1 ∧ rollDones ≤ 1 ∧
      (serviceAll snapshot s).strobes = s.strobes ++
        (List.replicate armBs .armB ++ List.replicate cTicks .cTick ++ List.replicate rollDones .rollDone) := by
  obtain ⟨a, ha, hA⟩ := service_strobes snapshot .a s
  obtain ⟨b, hb, hB⟩ := service_strobes snapshot .b (service snapshot .a s)
  obtain ⟨c, hc, hC⟩ := service_strobes snapshot .c (service snapshot .b (service snapshot .a s))
  obtain ⟨d, hd, hD⟩ := service_strobes snapshot .d (serviceABC snapshot s)
  refine ⟨a + b, c, d, by omega, hc, hd, ?_⟩
  rw [serviceAll_eq_service_d, hD, serviceABC, hC, hB, hA]
  simp [channelStrobe, List.replicate_append_replicate]

/-- Only DISPATCH emits. -/
theorem step_emits {s t : State} (h : step s = .next t) (hne : t.strobes ≠ []) :
    s.nextInput = .command (encode .dispatch) ∧
      t = serviceAll s.consumed.pend { s.consumed with pend := 0 } := by
  obtain ⟨-, rfl⟩ | ⟨i, hi, heffect⟩ | ⟨_, _, -, -, rfl⟩ := step_cases h
  · exact absurd rfl hne
  · cases heffect with
    | dispatch => exact ⟨hi, rfl⟩
    | _ => exact absurd (consumed_strobes s) hne
  · exact absurd (consumed_strobes s) hne

/-- Only RD returns data. -/
theorem step_returns_data {s t : State} (h : step s = .next t) (hne : t.rdata ≠ none) :
    ∃ r, s.nextInput = .command (encode (.rd r)) := by
  obtain ⟨-, rfl⟩ | ⟨i, hi, heffect⟩ | ⟨_, _, -, -, rfl⟩ := step_cases h
  · exact absurd rfl hne
  · cases heffect with
    | rd r => exact ⟨r, hi⟩
    | dispatch => exact absurd (by rw [serviceAll_rdata, consumed_rdata]) hne
    | _ => exact absurd (consumed_rdata s) hne
  · exact absurd (consumed_rdata s) hne

/-- Settles O53: a step that emits is a DISPATCH, and its strobes are those of the four services in order. -/
theorem strobesOfOneStep : Obligations.StrobesOfOneStep := by
  intro s t h
  refine ⟨fun hne => (step_emits h hne).1, ?order, step_returns_data h⟩
  by_cases hnone : t.strobes = []
  · exact ⟨0, 0, 0, by decide, by decide, by decide, hnone⟩
  · obtain ⟨-, rfl⟩ := step_emits h hnone
    simpa using serviceAll_strobes s.consumed.pend { s.consumed with pend := 0 }

end Sys2Proof.Machine
end

section
/-!
PROOF. The environment's duties (70_reset_and_hazards.md R256, as the model reads them): what a step that keeps a
duty keeps.
-/

namespace Sys2Proof.Machine

/-! ### Channels fire only when they are not pending -/

/-- Settles O55: a FIRE under E3 finds its flag clear; no other effect writes OVR but CLRERR's. -/
theorem dutyE3PreventsOverrun : Obligations.DutyE3PreventsOverrun := by
  intro s t h hduty
  obtain ⟨-, rfl⟩ | ⟨i, hi, heffect⟩ | ⟨_, _, -, -, rfl⟩ := step_cases h
  · exact .inr rfl
  · rw [hi, keepsE3, commandOf_encode] at hduty
    cases heffect with
    | fire ch =>
      have hclear : channelSet s.consumed.pend ch = false := by simpa using hduty
      exact .inl ((ovrAfterFire_of_not_pending hclear _).trans (consumed_ovr s))
    | dispatch => exact .inl ((serviceAll_ovr _ _).trans (consumed_ovr s))
    | clrerr => exact .inr rfl
    | _ => exact .inl (consumed_ovr s)
  · exact .inl (consumed_ovr s)

/-! ### The blanking window -/

/-- While A is pending no occurrence of B is due or pending (42_multiplexing.md R179). -/
def State.windowKept (s : State) : Prop :=
  channelSet s.pend .a = true → s.bStage = .idle ∧ channelSet s.pend .b = false

/-- B fires only while an occurrence is due, A only while none is: that keeps the window, and a DISPATCH leaves
nothing pending. -/
theorem effect_keeps_window {i : Instr} {s t : State} (h : Effect s i t) (hb : i = .fire .b → s.bStage ≠ .idle)
    (ha : i = .fire .a → s.bStage = .idle ∧ channelSet s.pend .b = false) (hs : s.windowKept) : t.windowKept := by
  cases h with
  | fire ch =>
    intro hset
    cases ch with
    | a =>
      obtain ⟨hidle, hclear⟩ := ha rfl
      exact ⟨hidle, (channelSet_pendAfterFire_of_ne (by decide) _).trans hclear⟩
    | b =>
      rw [channelSet_pendAfterFire_of_ne (by decide)] at hset
      exact absurd (hs hset).1 (hb rfl)
    | c | d =>
      rw [channelSet_pendAfterFire_of_ne (by decide)] at hset ⊢
      exact hs hset
  | dispatch =>
    intro hset
    rw [serviceAll_pend] at hset
    exact absurd ((channelSet_zero .a).symm.trans hset) Bool.false_ne_true
  | _ => exact hs

/-- Settles O56: the condition is `State.windowKept`, and E1 and E2 are the premises under which every effect keeps
it. -/
theorem dutiesKeepTheBlankingWindow : Obligations.DutiesKeepTheBlankingWindow := by
  refine ⟨fun h => absurd h (by decide), fun s t h h1 h2 (hs : s.windowKept) => ?step⟩
  have hs' : s.consumed.windowKept := by simpa [State.windowKept] using hs
  obtain ⟨-, rfl⟩ | ⟨i, hi, heffect⟩ | ⟨_, _, -, -, rfl⟩ := step_cases h
  · have hclear : channelSet s.consumed.applyReset.pend .a = false := channelSet_zero .a
    exact fun hset => absurd (hclear.symm.trans hset) Bool.false_ne_true
  · rw [hi, keepsE1, commandOf_encode] at h1
    rw [hi, keepsE2, commandOf_encode] at h2
    refine effect_keeps_window heffect ?_ ?_ hs'
    · rintro rfl
      have hdue : s.bStage ≠ .idle ∧ channelSet s.pend .b = false := by simpa using h1
      simpa using hdue.1
    · rintro rfl
      simpa using h2
  · exact hs'

/-! ### BLINK only in set mode -/

/-- Settles O57: beside RESET only SETCTL writes the two bits, and under E7 it leaves no BLINK without SETTING. -/
theorem dutyE7KeepsBlinkInSetMode : Obligations.DutyE7KeepsBlinkInSetMode := by
  refine ⟨nofun, fun s t h hduty hs => ?step⟩
  have hs' : s.consumed.blink = true → s.consumed.setting = true := by simpa using hs
  obtain ⟨-, rfl⟩ | ⟨i, hi, heffect⟩ | ⟨_, _, -, -, rfl⟩ := step_cases h
  · exact fun hblink => absurd hblink Bool.false_ne_true
  · rw [hi, keepsE7, commandOf_encode] at hduty
    cases heffect with
    | setctl setting blink =>
      have hkeep : setting = true ∨ blink = false := by simpa using hduty
      exact fun hblink : blink = true => hkeep.resolve_right (by simp [hblink])
    | dispatch => simpa using hs
    | _ => exact hs'
  · exact hs'

/-! ### Runs that keep all the duties -/

/-- What every dutiful step keeps holds at the end of every dutiful run. -/
theorem dutiful_run_invariant {P : State → Prop}
    (hstep : ∀ s t, P s → keepsDuties s s.nextInput = true → step s = .next t → P t) (n : Nat) {s t : State}
    (hs : P s) (hduties : keepsDutiesFor n s) (h : Host.Core.run Sys2Proof.core n s = .next t) : P t := by
  induction n generalizing s with
  | zero => cases h; exact hs
  | succ n ih =>
    obtain ⟨u, hu⟩ := everyStepGoesOn s
    obtain ⟨hduty, hrest⟩ := hduties
    rw [run_succ hu] at h
    exact ih (hstep s u hs hduty hu) (hrest u hu) h

theorem keepsDuties_iff (s : State) (i : Input) :
    keepsDuties s i = true ↔
      keepsE1 s i = true ∧ keepsE2 s i = true ∧ keepsE3 s i = true ∧ keepsE7 s i = true := by
  simp [keepsDuties, and_assoc]

/-- What dutiful runs keep: nothing merged, the window kept, and BLINK only in set mode. -/
def State.undisturbed (s : State) : Prop :=
  s.noneMerged ∧ s.windowKept ∧ (s.blink = true → s.setting = true)

/-- Settles O58: reset meets the three conditions, and a step that keeps the duties keeps each of them. -/
theorem dutifulRunsScanUndisturbed : Obligations.DutifulRunsScanUndisturbed := by
  intro is t hduties h
  have hreset : (State.resetPresenting is).undisturbed :=
    ⟨rfl, dutiesKeepTheBlankingWindow.1, dutyE7KeepsBlinkInSetMode.1⟩
  refine dutiful_run_invariant (P := State.undisturbed) (fun s t hs hduty h => ?step) is.length hreset hduties h
  obtain ⟨hmerged, hwindow, hblink⟩ := hs
  obtain ⟨h1, h2, h3, h7⟩ := (keepsDuties_iff s s.nextInput).1 hduty
  refine ⟨?merged, dutiesKeepTheBlankingWindow.2 s t h h1 h2 hwindow, dutyE7KeepsBlinkInSetMode.2 s t h h7 hblink⟩
  obtain hovr | hovr := dutyE3PreventsOverrun s t h h3
  · exact hovr.trans hmerged
  · exact hovr

end Sys2Proof.Machine
end

section
/-!
PROOF. How a step meets its input: a listed word, a listed RESET, and the free schedule (00_scope.md R16,
70_reset_and_hazards.md R250; log 1, log 2).
-/

namespace Sys2Proof.Machine

theorem step_of_presented_word {s : State} {w : Word} {rest : List Input} (h : s.presented = .command w :: rest) :
    step s = performWord w { s with presented := rest, strobes := [], rdata := none } := by
  rw [step, nextInput_of_presented h, consumed_of_presented h, performInput]

/-- `withFetchWord` at the width of a word presents that word first (log 3). -/
theorem withFetchWord_presented (s : State) (w : Word) :
    (s.withFetchWord 16 w.toNat).presented = .command w :: s.presented := by
  rw [State.withFetchWord, State.presentWord, Nat.mod_eq_of_lt w.isLt, BitVec.ofNat_toNat, BitVec.setWidth_eq]

/-- Settles O6: the word listed first is performed, by its command or by the record of ILLEGAL_CMD. -/
theorem stepPerformsPresentedCommand : Obligations.StepPerformsPresentedCommand := by
  intro s w rest
  refine ⟨fun h => ⟨fun i hi => ?command, fun reason hr => ?illegal⟩, fun i hi => ?fetched⟩
  case command => rw [step_of_presented_word h, performWord, hi]
  case illegal => rw [step_of_presented_word h, illegalWordOnly_of_decode_error hr]
  case fetched =>
    rw [step_of_presented_word (withFetchWord_presented s w), performWord, hi]
    rfl

/-- Settles O7: the step is `State.applyReset` on the state with its input consumed. -/
theorem resetStepSetsEveryRegister : Obligations.ResetStepSetsEveryRegister := by
  intro s rest h
  rw [step, nextInput_of_presented h, consumed_of_presented h]
  rfl

/-- Settles O9: with nothing listed `State.nextInput` is the next draw, and consuming it counts it. -/
theorem unlistedInputIsFree : Obligations.UnlistedInputIsFree := by
  intro s h
  have hdraw : s.nextInput = Config.freeInput s.draws := by rw [State.nextInput, h]
  rw [step, hdraw, consumed_of_unlisted h]

end Sys2Proof.Machine
end

section
/-!
PROOF. The register images determine the registers (10_state.md R42, 20_memory.md R66).
-/

namespace Sys2Proof.Machine

/-- The stage of a code that B_STAGE holds (10_state.md R30). -/
def stageOfCode (c : BitVec 2) : BStage :=
  match c.toNat with
  | 0 => .idle
  | 1 => .cath
  | _ => .anode

/-- The cause of a code that CAUSE holds (60_exceptions.md R221). -/
def causeOfCode (c : BitVec 4) : Cause :=
  match c.toNat with
  | 0 => .none
  | 1 => .illegalCmd
  | 2 => .badPair
  | 3 => .badBcd
  | 4 => .badView
  | 5 => .badField
  | _ => .range

theorem BStage.code_injective : Function.Injective BStage.code :=
  Function.LeftInverse.injective (g := stageOfCode) fun b => by cases b <;> rfl

theorem Cause.code_injective : Function.Injective Cause.code :=
  Function.LeftInverse.injective (g := causeOfCode) fun c => by cases c <;> rfl

theorem ofBool_injective : Function.Injective BitVec.ofBool := by
  intro a b h
  simpa using congrArg (BitVec.getLsbD · 0) h

/-- An image of two parts shows both. -/
theorem parts_of_append {m n : Nat} {a a' : BitVec m} {b b' : BitVec n} (h : a ++ b = a' ++ b') :
    a = a' ∧ b = b' := by
  have hupper := congrArg (BitVec.extractLsb' n m) h
  have hlower := congrArg (BitVec.extractLsb' 0 n) h
  rw [BitVec.extractLsb'_append_eq_left, BitVec.extractLsb'_append_eq_left] at hupper
  rw [BitVec.extractLsb'_append_eq_right, BitVec.extractLsb'_append_eq_right] at hlower
  exact ⟨hupper, hlower⟩

/-- A byte is its image. -/
theorem byte_of_image {a b : Byte} (h : (a.zeroExtend 16 : Word) = b.zeroExtend 16) : a = b := by
  apply BitVec.eq_of_toNat_eq
  rw [← byte_image_toNat a, h, byte_image_toNat]

/-! ### Registers of the images -/

theorem lines_of_drive {s t : State} (h : s.regRead .drive = t.regRead .drive) :
    s.cathode = t.cathode ∧ s.anode = t.anode := parts_of_append h

theorem scan_of_muxstat {s t : State} (h : s.regRead .muxstat = t.regRead .muxstat) :
    s.ovr = t.ovr ∧ s.pend = t.pend ∧ s.bStage = t.bStage ∧ s.phase = t.phase := by
  obtain ⟨h, hphase⟩ := parts_of_append h
  obtain ⟨h, hstage⟩ := parts_of_append h
  obtain ⟨h, -⟩ := parts_of_append h
  obtain ⟨hovr, hpend⟩ := parts_of_append h
  have hnum : s.phase.val % 8 = t.phase.val % 8 := by simpa using congrArg BitVec.toNat hphase
  exact ⟨hovr, hpend, BStage.code_injective hstage, Fin.ext (by omega)⟩

theorem roll_of_rollstat {s t : State} (h : s.regRead .rollstat = t.regRead .rollstat) :
    s.setting = t.setting ∧ s.blink = t.blink ∧ s.view = t.view ∧ s.lastView = t.lastView ∧
      s.rolling = t.rolling ∧ s.overCount = t.overCount := by
  obtain ⟨h, hover⟩ := parts_of_append h
  obtain ⟨h, hrolling⟩ := parts_of_append h
  obtain ⟨h, -⟩ := parts_of_append h
  obtain ⟨h, -⟩ := parts_of_append h
  obtain ⟨h, hlast⟩ := parts_of_append h
  obtain ⟨h, hview⟩ := parts_of_append h
  obtain ⟨h, hblink⟩ := parts_of_append h
  obtain ⟨-, hsetting⟩ := parts_of_append h
  exact ⟨ofBool_injective hsetting, ofBool_injective hblink, View.code_injective hview, View.code_injective hlast,
    ofBool_injective hrolling, hover⟩

theorem record_of_faultstat {s t : State} (h : s.regRead .faultstat = t.regRead .faultstat) :
    s.fault = t.fault ∧ s.cause = t.cause := by
  obtain ⟨h, hcause⟩ := parts_of_append h
  obtain ⟨hfault, -⟩ := parts_of_append h
  exact ⟨ofBool_injective hfault, Cause.code_injective hcause⟩

theorem pair_of_images {s t : State} (h : ∀ r, s.regRead r = t.regRead r) : s.pair = t.pair := by
  ext p hp : 1
  apply byte_of_image
  interval_cases p
  · exact h .pair0
  · exact h .pair1
  · exact h .pair2

theorem src_of_images {s t : State} (h : ∀ r, s.regRead r = t.regRead r) : s.src = t.src := by
  ext f hf : 1
  apply byte_of_image
  interval_cases f
  · exact h .tSec
  · exact h .tMin
  · exact h .tHour
  · exact h .dDay
  · exact h .dMonth
  · exact h .dYsuf
  · exact h .uSec
  · exact h .uMin
  · exact h .uHour

/-- Settles O15: RD answers with the image, and each register is read back from the image it stands in. -/
theorem readsRevealEveryRegister : Obligations.ReadsRevealEveryRegister := by
  intro s t h
  have himage (r : ReadIndex) : s.regRead r = t.regRead r := by
    obtain ⟨v, hs, ht⟩ := h r
    have hsv := congrArg State.rdata (Host.Outcome.next.inj hs)
    have htv := congrArg State.rdata (Host.Outcome.next.inj ht)
    exact Option.some.inj (hsv.trans htv.symm)
  obtain ⟨hcathode, hanode⟩ := lines_of_drive (himage .drive)
  obtain ⟨hovr, hpend, hstage, hphase⟩ := scan_of_muxstat (himage .muxstat)
  obtain ⟨hsetting, hblink, hview, hlast, hrolling, hover⟩ := roll_of_rollstat (himage .rollstat)
  obtain ⟨hfault, hcause⟩ := record_of_faultstat (himage .faultstat)
  rw [State.SameRegisters, pair_of_images himage, src_of_images himage, hcathode, hanode, hovr, hpend, hstage, hphase,
    hsetting, hblink, hview, hlast, hrolling, hover, hfault, hcause]

end Sys2Proof.Machine
end

section
/-!
PROOF. What runs of commands keep and show: the sticky status, the frozen roll of set mode, and the first TICK and the
first phase after reset (60_exceptions.md R224, 41_animation.md R148, 70_reset_and_hazards.md R252, R255, R257).
-/

namespace Sys2Proof.Machine

/-- What every command of a list keeps holds at the end of its run. -/
theorem afterCommands_invariant {P : State → Prop} (hregs : ∀ u v : State, u.SameRegisters v → P u → P v)
    {is : List Instr} (hkeep : ∀ i ∈ is, ∀ u v, Effect u i v → P u → P v) {s t : State} (hs : P s)
    (h : afterCommands is s = .next t) : P t := by
  obtain ⟨u, hu, hP⟩ := afterCommands_keeps hregs hkeep hs
  cases hu.symm.trans h
  exact hP

/-- One command of a list: the state it meets, the state it leaves, and the run that goes on from there. -/
theorem afterCommands_at {before after : List Instr} {i : Instr} {s t : State}
    (h : afterCommands (before ++ i :: after) s = .next t) :
    ∃ u v, afterCommands before s = .next u ∧ exec i u.openPorts = .next v ∧ afterCommands after v = .next t := by
  obtain ⟨u, hu⟩ := afterCommands_ends before s
  obtain ⟨v, hv, -⟩ := exec_has_effect i u.openPorts
  exact ⟨u, v, hu, hv, by rw [← h, afterCommands_append hu, afterCommands_cons_of_exec hv]⟩

/-! ### The sticky status -/

/-- Without CLRERR a recorded fault is there at the end. -/
theorem afterCommands_keeps_fault {is : List Instr} (hclr : ∀ i ∈ is, i ≠ .clrerr) {s t : State}
    (hs : s.fault = true) (h : afterCommands is s = .next t) : t.fault = true :=
  afterCommands_invariant (P := fun u => u.fault = true) (fun _ _ hregs hu => by rw [hregs]; exact hu)
    (fun i hi _ _ heffect hu => effect_keeps_fault heffect (hclr i hi) hu) hs h

/-- CLRERR alone clears a recorded overrun. -/
theorem effect_keeps_overrun {i : Instr} {s t : State} (h : Effect s i t) (hi : i ≠ .clrerr) {ch : Channel}
    (hs : channelSet s.ovr ch = true) : channelSet t.ovr ch = true := by
  cases h with
  | clrerr => exact absurd rfl hi
  | fire ch' => exact channelSet_ovrAfterFire_of_set hs s.pend ch'
  | dispatch => rw [serviceAll_ovr]; exact hs
  | _ => exact hs

/-- Without CLRERR a recorded overrun is there at the end. -/
theorem afterCommands_keeps_overrun {is : List Instr} (hclr : ∀ i ∈ is, i ≠ .clrerr) {ch : Channel} {s t : State}
    (hs : channelSet s.ovr ch = true) (h : afterCommands is s = .next t) : channelSet t.ovr ch = true :=
  afterCommands_invariant (P := fun u => channelSet u.ovr ch = true) (fun _ _ hregs hu => by rw [hregs]; exact hu)
    (fun i hi _ _ heffect hu => effect_keeps_overrun heffect (hclr i hi) hu) hs h

/-- Settles O47: an ill-formed command records a fault, a FIRE that meets its own flag records an overrun, and without
CLRERR either record is there at the end. -/
theorem cleanStatusAtTheEnd : Obligations.CleanStatusAtTheEnd := by
  intro is s t hclr h
  refine ⟨fun hclean i hi => ?wellFormed, fun hclean before after ch his => ?notMerged⟩
  case wellFormed =>
    obtain ⟨before, after, rfl⟩ := List.append_of_mem hi
    obtain ⟨u, v, -, hv, hrest⟩ := afterCommands_at h
    by_contra hill
    obtain ⟨c, -, hc⟩ := faultsArePrecise.2.1 i u.openPorts (Bool.eq_false_iff.2 hill)
    cases hc.symm.trans hv
    have hfault := afterCommands_keeps_fault (fun j hj => hclr j (by simp [hj])) rfl hrest
    exact absurd (hclean.symm.trans hfault) Bool.false_ne_true
  case notMerged =>
    subst his
    obtain ⟨u, v, hu, hv, hrest⟩ := afterCommands_at h
    refine ⟨u, hu, Bool.eq_false_iff.2 fun hpending => ?_⟩
    cases hv
    have hovr := afterCommands_keeps_overrun (ch := ch) (fun j hj => hclr j (by simp [hj]))
      (channelSet_ovrAfterFire_of_pending hpending _) hrest
    rw [hclean, channelSet_zero] at hovr
    cases hovr

/-! ### Set mode -/

/-- `t` is in set mode with the roll of `s`, and with the buffer of `s` where `kept` says so. -/
def State.frozen (s : State) (kept : Prop) (t : State) : Prop :=
  t.setting = true ∧ t.rolling = s.rolling ∧ t.overCount = s.overCount ∧ t.lastView = s.lastView ∧
    (kept → t.pair = s.pair)

/-- In set mode a command but SETCTL leaves the roll alone, and unless it is a WPAIR the buffer too. -/
theorem effect_in_set_mode {i : Instr} {s t : State} (h : Effect s i t) (hs : s.setting = true)
    (hi : ∀ b b', i ≠ .setctl b b') : s.frozen (∀ p d, i ≠ .wpair p d) t := by
  cases h with
  | setctl b b' => exact absurd rfl (hi b b')
  | wpair p d => exact ⟨hs, rfl, rfl, rfl, fun hno => absurd rfl (hno p d)⟩
  | tickStart hs' | tickJoin hs' | tickCopy hs' => exact absurd (hs'.symm.trans hs) Bool.false_ne_true
  | dispatch =>
    rw [serviceAll_of_no_roll_step (s := { s with pend := 0 }) (.inl hs)]
    simpa [State.frozen] using hs
  | _ => exact ⟨hs, rfl, rfl, rfl, fun _ => rfl⟩

/-- Settles O43: each command of the list leaves the roll as it met it, and the buffer unless it is a WPAIR. -/
theorem setModeFreezesTheRoll : Obligations.SetModeFreezesTheRoll := by
  intro is s hs hctl
  refine afterCommands_keeps (P := s.frozen (∀ i ∈ is, ∀ p d, i ≠ .wpair p d)) ?regs ?keep
    ⟨hs, rfl, rfl, rfl, fun _ => rfl⟩
  case regs =>
    intro u v hregs hu
    rw [hregs]
    exact hu
  case keep =>
    intro i hi u v heffect ⟨hset, hroll, hover, hlast, hpair⟩
    obtain ⟨hset', hroll', hover', hlast', hpair'⟩ := effect_in_set_mode heffect hset (hctl i hi)
    exact ⟨hset', hroll'.trans hroll, hover'.trans hover, hlast'.trans hlast,
      fun hno => (hpair' (hno i hi)).trans (hpair hno)⟩

/-! ### What the next TICK shows -/

theorem targetDigit_congr {s t : State} (hsrc : t.src = s.src) (hview : t.view = s.view) (p : Fin 3) (k : Fin 2) :
    targetDigit t p k = targetDigit s p k := by
  simp [targetDigit, shownValue, hsrc, hview]

/-- Settles O24: whether the WPAIR writes or is refused, the TICK after it meets the same view, latches and roll, so it
copies. -/
theorem wpairOutsideSetModeIsOverwritten : Obligations.WpairOutsideSetModeIsOverwritten := by
  intro p d s hI hs hr hv
  obtain ⟨u, hu, heffect⟩ := exec_has_effect (.wpair p d) s.openPorts
  obtain ⟨hsrc, hview, hlast, hset, hroll⟩ : u.src = s.src ∧ u.view = s.view ∧ u.lastView = s.lastView ∧
      u.setting = s.setting ∧ u.rolling = s.rolling := by
    cases heffect with
    | wpair | refused => exact ⟨rfl, rfl, rfl, rfl, rfl⟩
  have hcopy : exec .tick u.openPorts = .next u.openPorts.directCopy :=
    execTick_of_no_roll (hset.trans hs) (hview.trans (hv.trans hlast.symm)) (hroll.trans hr)
  refine ⟨_, (afterCommands_cons_of_exec hu _).trans (afterCommands_cons_of_exec hcopy []), fun q k => ?_⟩
  have hfields (f : Fin 9) : u.openPorts.src[f].toNat ≤ 99 := by
    simpa [hsrc] using hI.fields f
  exact (digitOf_directCopy hfields q k).trans (targetDigit_congr hsrc hview q k)

/-- Settles O25: the TICK meets the view just set, which is not LAST_VIEW, so it starts or joins a roll and copies
nothing. -/
theorem viewChangeShowsUpLate : Obligations.ViewChangeShowsUpLate := by
  intro v s hne hv hs
  obtain ⟨w, rfl, hset⟩ : ∃ w : View, w.code = v ∧
      exec (.setview v) s.openPorts = .next { s.openPorts with view := w } := execSetview_of_legal s.openPorts hv
  have hchange : w ≠ s.lastView := fun h => hne (by rw [h])
  have hrun {t : State} (ht : exec .tick { s.openPorts with view := w } = .next t) :
      afterCommands (expandPseudo (.showView w.code)) s = .next { t with presented := [] } :=
    (afterCommands_cons_of_exec hset _).trans (afterCommands_cons_of_exec (s := { s.openPorts with view := w }) ht [])
  cases hr : s.rolling with
  | false =>
    exact ⟨_, hrun (execTick_starts_roll (s := { s.openPorts with view := w }) hs hchange hr), rfl, rfl, rfl, rfl,
      fun _ => rfl, nofun⟩
  | true =>
    exact ⟨_, hrun (execTick_joins_roll (s := { s.openPorts with view := w }) hs hchange hr), rfl, rfl, rfl, hr, nofun,
      fun _ => rfl⟩

/-! ### After reset -/

/-- What the first TICK after reset finds (70_reset_and_hazards.md R252). -/
def State.awaitsFirstTick (s : State) : Prop :=
  s.src = State.reset.src ∧ s.view = .time ∧ s.lastView = .time ∧ s.setting = false ∧ s.rolling = false

theorem effect_awaits_first_tick {i : Instr} {s t : State} (h : Effect s i t)
    (hi : i ≠ .tick ∧ (∀ v, i ≠ .setview v) ∧ (∀ f n, i ≠ .ldsrc f n) ∧ ∀ b b', i ≠ .setctl b b')
    (hs : s.awaitsFirstTick) : t.awaitsFirstTick := by
  obtain ⟨htick, hsetview, hldsrc, hsetctl⟩ := hi
  cases h with
  | tickHeld | tickStart | tickJoin | tickDuringRoll | tickCopy => exact absurd rfl htick
  | setview v => exact absurd rfl (hsetview v)
  | ldsrc f n => exact absurd rfl (hldsrc f n)
  | setctl b b' => exact absurd rfl (hsetctl b b')
  | dispatch =>
    obtain ⟨-, -, -, -, hroll⟩ := id hs
    rw [serviceAll_of_no_roll_step (s := { s with pend := 0 }) (.inr hroll)]
    simpa [State.awaitsFirstTick] using hs
  | _ => exact hs

/-- A position after reset and before the first firing of A. -/
def State.awaitsFirstPhase (s : State) : Prop := s.phase = 5 ∧ channelSet s.pend .a = false

theorem effect_awaits_first_phase {i : Instr} {s t : State} (h : Effect s i t) (hi : i ≠ .fire .a)
    (hs : s.awaitsFirstPhase) : t.awaitsFirstPhase := by
  cases h with
  | fire ch =>
    have hch : Channel.a ≠ ch := by rintro rfl; exact hi rfl
    exact ⟨hs.1, (channelSet_pendAfterFire_of_ne hch _).trans hs.2⟩
  | dispatch => exact ⟨(serviceAll_phase_of_not_a hs.2 _).trans hs.1, by rw [serviceAll_pend, channelSet_zero]⟩
  | _ => exact hs

theorem handleA_phase (s : State) : (handleA s).phase = nextPhase s.phase := by
  obtain ⟨-, h⟩ | ⟨-, h⟩ := handleA_cases s <;> rw [h]

theorem serviceAll_phase_of_a {snapshot : BitVec 4} (ha : channelSet snapshot .a = true) (s : State) :
    (serviceAll snapshot s).phase = nextPhase s.phase := by
  simp [serviceAll, service_of_set ha, handler, handleA_phase]

/-- Settles O54: the commands before leave the latches, the view and the roll at their reset values, or the phase
at 5 with A not pending. -/
theorem firstTickAndFirstPhaseAfterReset : Obligations.FirstTickAndFirstPhaseAfterReset := by
  refine ⟨fun is his => ?tick, fun is his => ?phase⟩
  case tick =>
    obtain ⟨u, hu, hsrc, hview, hlast, hset, hroll⟩ :=
      afterCommands_keeps (P := State.awaitsFirstTick) (fun _ _ hregs hu => by rw [hregs]; exact hu)
        (fun i hi _ _ heffect hu => effect_awaits_first_tick heffect (his i hi) hu)
        (s := State.reset) ⟨rfl, rfl, rfl, rfl, rfl⟩
    have hcopy : exec .tick u.openPorts = .next u.openPorts.directCopy :=
      execTick_of_no_roll hset (hview.trans hlast.symm) hroll
    refine ⟨_, (afterCommands_append hu _).trans (afterCommands_cons_of_exec hcopy []), ?_⟩
    have htargets : u.openPorts.targets = State.reset.targets := by
      simp [State.targets, State.target, hsrc, hview, State.reset]
    exact htargets.trans (by decide)
  case phase =>
    obtain ⟨u, hu, hphase, -⟩ :=
      afterCommands_keeps (P := State.awaitsFirstPhase) (fun _ _ hregs hu => by rw [hregs]; exact hu)
        (fun i hi _ _ heffect hu => effect_awaits_first_phase heffect (his i hi) hu)
        (s := State.reset) ⟨rfl, rfl⟩
    refine ⟨_, (afterCommands_append hu _).trans ((afterCommands_fire .a _ u).trans (afterCommands_dispatch [] _)), ?_⟩
    exact (serviceAll_phase_of_a (channelSet_pendAfterFire_self u.pend .a) _).trans (congrArg nextPhase hphase)

end Sys2Proof.Machine
end

section
/-!
PROOF. The scan (42_multiplexing.md R177 to R179): one firing and its DISPATCH, the three states of a phase, and what
a SCAN puts out.
-/

namespace Sys2Proof.Machine

/-! ### One firing, handled -/

/-- The outputs of a list of commands performed in order. -/
def outputsOfCommands (is : List Instr) (s : State) : List Output :=
  outputsOfRun is.length { s with presented := presentation is }

theorem step_of_presentation {i : Instr} {s t : State} (h : exec i s.openPorts = .next t) (is : List Instr) :
    step { s with presented := presentation (i :: is) } = .next { t with presented := presentation is } := by
  rw [step_of_presented_word (w := encode i) (rest := presentation is) rfl, performWord, decodeEncodeRoundTrip]
  exact exec_ignores_presented h (presentation is)

theorem outputsOfCommands_cons {i : Instr} {s t : State} (h : exec i s.openPorts = .next t) (is : List Instr) :
    outputsOfCommands (i :: is) s = t.output :: outputsOfCommands is t := by
  rw [outputsOfCommands, List.length_cons, outputsOfRun, step_of_presentation h]
  rfl

/-- With nothing pending a firing of a channel and the DISPATCH after it run that channel's handler
(30_encoding.md R91). -/
theorem exec_dispatch_of_fired (ch : Channel) {s : State} (hp : s.pend = 0) :
    ∃ u, exec (.fire ch) s.openPorts = .next u ∧ u.output = ⟨[], none⟩ ∧
      exec .dispatch u.openPorts = .next (handler ch s.openPorts) := by
  refine ⟨{ s.openPorts with pend := channelBit ch }, ?fired, rfl, ?handled⟩
  case fired =>
    rw [exec_fire, execFire, State.openPorts_pend, hp, ovrAfterFire_zero, pendAfterFire_zero]
  case handled =>
    have hcleared : ({ s.openPorts with pend := 0 } : State) = s.openPorts := by rw [← hp]; rfl
    rw [exec_dispatch_of_only (ch := ch) rfl]
    exact congrArg (fun v => Host.Outcome.next (handler ch v)) hcleared

theorem afterCommands_step {ch : Channel} {s t : State} (hp : s.pend = 0) (h : handler ch s.openPorts = t)
    (is : List Instr) : afterCommands (.fire ch :: .dispatch :: is) s = afterCommands is t := by
  obtain ⟨u, hfire, -, hdispatch⟩ := exec_dispatch_of_fired ch hp
  rw [afterCommands_cons_of_exec hfire, afterCommands_cons_of_exec hdispatch, h]

theorem outputsOfCommands_step {ch : Channel} {s t : State} (hp : s.pend = 0) (h : handler ch s.openPorts = t)
    (is : List Instr) :
    outputsOfCommands (.fire ch :: .dispatch :: is) s = ⟨[], none⟩ :: t.output :: outputsOfCommands is t := by
  obtain ⟨u, hfire, hsilent, hdispatch⟩ := exec_dispatch_of_fired ch hp
  rw [outputsOfCommands_cons hfire, outputsOfCommands_cons hdispatch, hsilent, h]

/-! ### The three states of a phase -/

/-- The phase begins: dark, with the first occurrence of B due (42_multiplexing.md R172). -/
def State.darkened (s : State) : State :=
  { s with cathode := 0, anode := 0, phase := nextPhase s.phase, bStage := .cath, strobes := [.armB], rdata := none }

/-- The first occurrence of B: the digit's cathode line, still no anode (42_multiplexing.md R173). -/
def State.cathodeSet (s : State) : State :=
  { s with cathode := cathodePattern s.phaseDigit, bStage := .anode, strobes := [.armB], rdata := none }

/-- The second occurrence of B: the position is lit (42_multiplexing.md R173). -/
def State.lit (s : State) : State :=
  { s with anode := anodeLine s.phase, bStage := .idle, strobes := [], rdata := none }

theorem handler_a_eq_darkened {s : State} (hb : s.blink = false) : handler .a s.openPorts = s.darkened :=
  handleA_of_no_blink (s := s.openPorts) hb

theorem handler_b_eq_cathodeSet {s : State} (hb : s.blink = false) (hst : s.bStage = .cath) :
    handler .b s.openPorts = s.cathodeSet := handleB_of_cath (s := s.openPorts) hb hst

theorem handler_b_eq_lit {s : State} (hb : s.blink = false) (hst : s.bStage = .anode) :
    handler .b s.openPorts = s.lit := handleB_of_anode (s := s.openPorts) hb hst

/-- What a SCAN leaves when nothing was pending. -/
def State.scanned (s : State) : State := s.darkened.cathodeSet.lit

theorem scan_steps {s : State} (hb : s.blink = false) :
    handler .a s.openPorts = s.darkened ∧ handler .b s.darkened.openPorts = s.darkened.cathodeSet ∧
      handler .b s.darkened.cathodeSet.openPorts = s.scanned :=
  ⟨handler_a_eq_darkened hb, handler_b_eq_cathodeSet hb rfl, handler_b_eq_lit hb rfl⟩

theorem afterCommands_scan {s : State} (hb : s.blink = false) (hp : s.pend = 0) (is : List Instr) :
    afterCommands (expandPseudo .scan ++ is) s = afterCommands is s.scanned := by
  obtain ⟨ha, hfirst, hsecond⟩ := scan_steps hb
  calc afterCommands (expandPseudo .scan ++ is) s
    _ = afterCommands (.fire .b :: .dispatch :: .fire .b :: .dispatch :: is) s.darkened := afterCommands_step hp ha _
    _ = afterCommands (.fire .b :: .dispatch :: is) s.darkened.cathodeSet :=
      afterCommands_step (s := s.darkened) hp hfirst _
    _ = afterCommands is s.scanned := afterCommands_step (s := s.darkened.cathodeSet) hp hsecond is

/-- The cathode line of the digit the selected position shows (42_multiplexing.md R175, R176). -/
theorem cathodePattern_of_digits {s : State} (h : s.showsDigits) :
    cathodePattern s.phaseDigit = 1#10 <<< digitAt s.pair s.phase := by
  rw [cathodePattern_of_digit (phaseDigit_le h), phaseDigit_toNat]

theorem afterCommands_scans_succ {s : State} (hb : s.blink = false) (hp : s.pend = 0) (n : Nat) :
    afterCommands (scans (n + 1)) s = afterCommands (scans n) s.scanned :=
  afterCommands_scan hb hp (scans n)

/-- Scan after scan the phases are lit in order. -/
theorem scans_light_phases (n : Nat) {s : State} (hdigits : s.showsDigits) (hb : s.blink = false) (hp : s.pend = 0) :
    ∃ t, afterCommands (scans (n + 1)) s = .next t ∧
      t.phase.val = (s.phase.val + n + 1) % 6 ∧ t.bStage = .idle ∧ t.anode = 1#6 <<< t.phase.val ∧
      t.cathode = 1#10 <<< digitAt s.pair t.phase := by
  induction n generalizing s with
  | zero =>
    exact ⟨_, afterCommands_scans_succ hb hp 0, rfl, rfl, rfl, cathodePattern_of_digits (s := s.darkened) hdigits⟩
  | succ n ih =>
    obtain ⟨t, ht, hphase, hrest⟩ := ih (s := s.scanned) hdigits hb hp
    have hnext : s.scanned.phase.val = (s.phase.val + 1) % 6 := rfl
    exact ⟨t, (afterCommands_scans_succ hb hp (n + 1)).trans ht, by omega, hrest⟩

/-! ### The statements -/

/-- Settles O33: the snapshot runs the A handler and then the B handler, which finds the first occurrence due. -/
theorem snapshotOfAAndB : Obligations.SnapshotOfAAndB := by
  intro s hI hp hb
  have hA := handleA_of_no_blink (s := { s with pend := 0 }) hb
  have hB := handleB_of_cath (s := handleA { s with pend := 0 }) ((handleA_blink _).trans hb) (by rw [hA])
  refine ⟨handleB (handleA { s with pend := 0 }), by rw [exec_dispatch, hp]; rfl, ?_⟩
  rw [hB, hA]
  exact ⟨rfl, by simp, cathodePattern_of_digits (s := s.darkened) hI.bcd⟩

/-- Settles O34: the first three states of a phase one after the other, and scans by induction on their number. -/
theorem scanLightsThePhases : Obligations.ScanLightsThePhases := by
  intro s hI hb hp
  obtain ⟨ha, hfirst, -⟩ := scan_steps hb
  refine ⟨?dark, ?cathode, fun n => scans_light_phases n hI.bcd hb hp⟩
  case dark => exact ⟨_, afterCommands_step hp ha [], rfl, rfl, rfl, rfl⟩
  case cathode =>
    exact ⟨_, (afterCommands_step hp ha _).trans (afterCommands_step (s := s.darkened) hp hfirst []), rfl, rfl, rfl,
      cathodePattern_of_digits (s := s.darkened) hI.bcd⟩

/-! ### Under BLINK -/

/-- Under BLINK a phase begins, stays dark and is silent (42_multiplexing.md R172). -/
def State.darkPhase (s : State) : State :=
  { s with cathode := 0, anode := 0, phase := nextPhase s.phase, bStage := .idle, strobes := [], rdata := none }

theorem dark_scan_steps {s : State} (hb : s.blink = true) :
    handler .a s.openPorts = s.darkPhase ∧ handler .b s.darkPhase.openPorts = s.darkPhase :=
  ⟨handleA_of_blink (s := s.openPorts) hb, handleB_of_blink (s := s.darkPhase.openPorts) hb⟩

/-- Settles O35: the outputs of the six steps are those of the three states of a phase, or of the dark phase. -/
theorem observationOfAScan : Obligations.ObservationOfAScan := by
  intro s hp
  refine ⟨fun hb => ?lit, fun hb => ⟨?dark, ?phase⟩⟩
  case lit =>
    obtain ⟨ha, hfirst, hsecond⟩ := scan_steps hb
    change outputsOfCommands (expandPseudo .scan) s = _
    rw [expandPseudo, outputsOfCommands_step hp ha, outputsOfCommands_step (s := s.darkened) hp hfirst,
      outputsOfCommands_step (s := s.darkened.cathodeSet) hp hsecond]
    rfl
  case dark =>
    obtain ⟨ha, hdark⟩ := dark_scan_steps hb
    change outputsOfCommands (expandPseudo .scan) s = _
    rw [expandPseudo, outputsOfCommands_step hp ha, outputsOfCommands_step (s := s.darkPhase) hp hdark,
      outputsOfCommands_step (s := s.darkPhase) hp hdark]
    rfl
  case phase =>
    obtain ⟨ha, hdark⟩ := dark_scan_steps hb
    exact ⟨_, (afterCommands_step hp ha _).trans ((afterCommands_step (s := s.darkPhase) hp hdark _).trans
      (afterCommands_step (s := s.darkPhase) hp hdark [])), rfl, rfl, rfl, rfl⟩

end Sys2Proof.Machine
end

section
/-!
PROOF. Merged firings (42_multiplexing.md R178).
-/

namespace Sys2Proof.Machine

/-! ### No handler reads OVR -/

theorem handleA_ignores_ovr (s : State) (o : BitVec 4) :
    handleA { s with ovr := o } = { handleA s with ovr := o } := by
  simp only [handleA]
  split <;> rfl

theorem handleB_ignores_ovr (s : State) (o : BitVec 4) :
    handleB { s with ovr := o } = { handleB s with ovr := o } := by
  simp only [handleB]
  split <;> [rfl; split] <;> rfl

theorem serviceABC_ignores_ovr (snapshot : BitVec 4) (s : State) (o : BitVec 4) :
    serviceABC snapshot { s with ovr := o } = { serviceABC snapshot s with ovr := o } := by
  have hservice {ch : Channel} (h : ∀ u : State, handler ch { u with ovr := o } = { handler ch u with ovr := o })
      (u : State) : service snapshot ch { u with ovr := o } = { service snapshot ch u with ovr := o } := by
    rw [service_eq, service_eq, h]
    split <;> rfl
  rw [serviceABC, serviceABC, hservice (ch := .a) (handleA_ignores_ovr · o),
    hservice (ch := .b) (handleB_ignores_ovr · o), hservice (ch := .c) fun _ => rfl]

theorem serviceAll_ignores_ovr (snapshot : BitVec 4) (s : State) (o : BitVec 4) :
    serviceAll snapshot { s with ovr := o } = { serviceAll snapshot s with ovr := o } := by
  obtain ⟨hd | hidle, h⟩ | ⟨hd, hs, hr, hc, h⟩ | ⟨hd, hs, hr, hnot, h⟩ := serviceAll_roll_cases snapshot s
  · rw [h, serviceAll_of_not_d hd, serviceABC_ignores_ovr]
  · rw [h, serviceAll_of_no_roll_step (s := { s with ovr := o }) hidle, serviceABC_ignores_ovr]
  · rw [h, serviceAll_of_completing_step (s := { s with ovr := o }) hd hs hr hc, serviceABC_ignores_ovr]
    rfl
  · rw [h, serviceAll_of_incomplete_step (s := { s with ovr := o }) hd hs hr hnot, serviceABC_ignores_ovr]
    rfl

/-! ### Firings on a pending flag -/

theorem or_channelBit_of_set {flags : BitVec 4} {ch : Channel} (h : channelSet flags ch = true) :
    flags ||| channelBit ch = flags := by
  revert flags
  cases ch <;> decide

theorem exec_fire_of_pending {ch : Channel} {s : State} (hp : channelSet s.pend ch = true) :
    exec (.fire ch) s = .next { s with ovr := s.ovr ||| channelBit ch } := by
  rw [exec_fire, execFire, ovrAfterFire_of_pending hp, pendAfterFire, or_channelBit_of_set hp]

/-- Once an overrun is recorded, more firings before the DISPATCH change nothing. -/
theorem afterCommands_more_fires {ch : Channel} {s : State} (hopen : s.openPorts = s)
    (hp : channelSet s.pend ch = true) (ho : channelSet s.ovr ch = true) (k : Nat) (is : List Instr) :
    afterCommands (List.replicate k (.fire ch) ++ is) s = afterCommands is s := by
  have hfire : exec (.fire ch) s.openPorts = .next s := by
    rw [hopen, exec_fire_of_pending hp, or_channelBit_of_set ho]
  induction k with
  | zero => rfl
  | succ k ih => rw [List.replicate_succ, List.cons_append, afterCommands_cons_of_exec hfire, ih]

/-- After one firing. -/
def State.firedOnce (ch : Channel) (s : State) : State :=
  { s.openPorts with ovr := ovrAfterFire s.pend s.ovr ch, pend := pendAfterFire s.pend ch }

/-- After two or more firings. -/
def State.firedAgain (ch : Channel) (s : State) : State :=
  { s.firedOnce ch with ovr := (s.firedOnce ch).ovr ||| channelBit ch }

theorem firedAgain_overrun (ch : Channel) (s : State) : channelSet (s.firedAgain ch).ovr ch = true := by
  simp [State.firedAgain, channelSet_or, channelSet_channelBit]

theorem afterCommands_fires (ch : Channel) (k : Nat) (s : State) (is : List Instr) :
    afterCommands (List.replicate (k + 2) (.fire ch) ++ is) s = afterCommands is (s.firedAgain ch) := by
  have hpending : channelSet (s.firedOnce ch).pend ch = true := channelSet_pendAfterFire_self s.pend ch
  have hfirst : exec (.fire ch) s.openPorts = .next (s.firedOnce ch) := rfl
  have hsecond : exec (.fire ch) (s.firedOnce ch).openPorts = .next (s.firedAgain ch) := exec_fire_of_pending hpending
  rw [List.replicate_succ, List.replicate_succ, List.cons_append, List.cons_append, afterCommands_cons_of_exec hfirst,
    afterCommands_cons_of_exec hsecond,
    afterCommands_more_fires (s := s.firedAgain ch) rfl hpending (firedAgain_overrun ch s)]

/-- The state that a DISPATCH leaves. -/
def State.dispatched (s : State) : State := serviceAll s.pend { s.openPorts with pend := 0 }

theorem dispatched_firedAgain (ch : Channel) (s : State) :
    (s.firedAgain ch).dispatched = { (s.firedOnce ch).dispatched with ovr := (s.firedAgain ch).ovr } :=
  serviceAll_ignores_ovr (s.firedOnce ch).pend { (s.firedOnce ch).openPorts with pend := 0 } (s.firedAgain ch).ovr

/-- Settles O36: from the second firing on only OVR differs, and no handler reads it. -/
theorem mergedFiringsRunOnce : Obligations.MergedFiringsRunOnce := by
  intro ch k s
  have hdispatch (u : State) : afterCommands [.dispatch] u = .next { u.dispatched with presented := [] } :=
    afterCommands_cons_of_exec (exec_dispatch u.openPorts) []
  have hfirst : exec (.fire ch) s.openPorts = .next (s.firedOnce ch) := rfl
  refine ⟨_, _, (afterCommands_fires ch k s _).trans (hdispatch _),
    (afterCommands_cons_of_exec hfirst _).trans (hdispatch _), ?only, ?set⟩
  case only => rw [dispatched_firedAgain]
  case set => rw [dispatched_firedAgain]; exact firedAgain_overrun ch s

end Sys2Proof.Machine
end

section
/-!
PROOF. The scan and the animation do not depend on each other (42_multiplexing.md sections 1 and 2, 41_animation.md):
the same command takes two states that agree on the registers of the one to two that agree on them again.
-/

namespace Sys2Proof.Machine

/-! ### The scan -/

/-- The two states agree on BLINK, PHASE, B_STAGE, ANODE and PEND. -/
def State.SameScan (s s' : State) : Prop :=
  s.blink = s'.blink ∧ s.phase = s'.phase ∧ s.bStage = s'.bStage ∧ s.anode = s'.anode ∧ s.pend = s'.pend

theorem State.SameScan.symm {s s' : State} (h : s.SameScan s') : s'.SameScan s := by
  obtain ⟨hblink, hphase, hstage, hanode, hpend⟩ := h
  exact ⟨hblink.symm, hphase.symm, hstage.symm, hanode.symm, hpend.symm⟩

theorem State.SameScan.trans {s t u : State} (h : s.SameScan t) (h' : t.SameScan u) : s.SameScan u := by
  obtain ⟨hblink, hphase, hstage, hanode, hpend⟩ := h
  obtain ⟨hblink', hphase', hstage', hanode', hpend'⟩ := h'
  exact ⟨hblink.trans hblink', hphase.trans hphase', hstage.trans hstage', hanode.trans hanode', hpend.trans hpend'⟩

theorem handleA_sameScan {s s' : State} (h : s.SameScan s') : (handleA s).SameScan (handleA s') := by
  obtain ⟨hblink, hphase, hstage, hanode, hpend⟩ := h
  cases hb : s.blink with
  | true =>
    rw [handleA_of_blink hb, handleA_of_blink (hblink.symm.trans hb)]
    exact ⟨hblink, congrArg nextPhase hphase, rfl, rfl, hpend⟩
  | false =>
    rw [handleA_of_no_blink hb, handleA_of_no_blink (hblink.symm.trans hb)]
    exact ⟨hblink, congrArg nextPhase hphase, rfl, rfl, hpend⟩

theorem handleB_sameScan {s s' : State} (h : s.SameScan s') : (handleB s).SameScan (handleB s') := by
  obtain ⟨hblink, hphase, hstage, hanode, hpend⟩ := h
  obtain ⟨hb, hs⟩ | ⟨hb, hst, hs⟩ | ⟨hb, hst, hs⟩ | ⟨hb, hst, hs⟩ := handleB_cases s
  · rw [hs, handleB_of_blink (hblink.symm.trans hb)]
    exact ⟨hblink, hphase, rfl, hanode, hpend⟩
  · rw [hs, handleB_of_idle (hblink.symm.trans hb) (hstage.symm.trans hst)]
    exact ⟨hblink, hphase, hstage, hanode, hpend⟩
  · rw [hs, handleB_of_cath (hblink.symm.trans hb) (hstage.symm.trans hst)]
    exact ⟨hblink, hphase, rfl, hanode, hpend⟩
  · rw [hs, handleB_of_anode (hblink.symm.trans hb) (hstage.symm.trans hst)]
    exact ⟨hblink, hphase, rfl, congrArg anodeLine hphase, hpend⟩

theorem handler_sameScan (ch : Channel) {s s' : State} (h : s.SameScan s') :
    (handler ch s).SameScan (handler ch s') := by
  cases ch with
  | a => exact handleA_sameScan h
  | b => exact handleB_sameScan h
  | c => exact h
  | d => simpa [State.SameScan, handler] using h

theorem serviceAll_sameScan (snapshot : BitVec 4) {s s' : State} (h : s.SameScan s') :
    (serviceAll snapshot s).SameScan (serviceAll snapshot s') := by
  have hservice (ch : Channel) {u u' : State} (hu : u.SameScan u') :
      (service snapshot ch u).SameScan (service snapshot ch u') := by
    rw [service_eq, service_eq]
    split
    · exact handler_sameScan ch hu
    · exact hu
  exact hservice .d (hservice .c (hservice .b (hservice .a h)))

/-- No command but FIRE, DISPATCH and SETCTL writes the scan's registers. -/
theorem effect_keeps_scan {i : Instr} {s t : State} (h : Effect s i t) (hfire : ∀ ch, i ≠ .fire ch)
    (hdispatch : i ≠ .dispatch) (hsetctl : ∀ b b', i ≠ .setctl b b') : s.SameScan t := by
  cases h with
  | fire ch => exact absurd rfl (hfire ch)
  | dispatch => exact absurd rfl hdispatch
  | setctl b b' => exact absurd rfl (hsetctl b b')
  | _ => exact ⟨rfl, rfl, rfl, rfl, rfl⟩

/-- Settles O59: FIRE and SETCTL write their operands, DISPATCH runs handlers that keep the agreement, and no other
command writes these registers. -/
theorem scanIgnoresDisplayedData : Obligations.ScanIgnoresDisplayedData := by
  intro i s t s' t' h h' hblink hphase hstage hanode hpend
  have hscan : s.SameScan s' := ⟨hblink, hphase, hstage, hanode, hpend⟩
  suffices hnext : t.SameScan t' from hnext
  cases i with
  | fire ch =>
    cases h
    cases h'
    exact ⟨hblink, hphase, hstage, hanode, congrArg (pendAfterFire · ch) hpend⟩
  | setctl b b' =>
    cases h
    cases h'
    exact ⟨rfl, hphase, hstage, hanode, hpend⟩
  | dispatch =>
    rw [exec_dispatch] at h h'
    cases h
    cases h'
    rw [hpend]
    exact serviceAll_sameScan s'.pend ⟨hblink, hphase, hstage, hanode, rfl⟩
  | _ =>
    have hkept := effect_keeps_scan (exec_effect h) nofun nofun nofun
    have hkept' := effect_keeps_scan (exec_effect h') nofun nofun nofun
    exact hkept.symm.trans (hscan.trans hkept')

/-! ### The animation -/

/-- The two states agree on the buffer, the latches, the views, SETTING, the roll and PEND. -/
def State.SameRoll (s s' : State) : Prop :=
  s.pair = s'.pair ∧ s.src = s'.src ∧ s.view = s'.view ∧ s.lastView = s'.lastView ∧ s.setting = s'.setting ∧
    s.rolling = s'.rolling ∧ s.overCount = s'.overCount ∧ s.pend = s'.pend

theorem rollStep_congr {s s' : State} (h : s.SameRoll s') :
    s.targets = s'.targets ∧ s.rolledPairs = s'.rolledPairs ∧ (s.rollStepCompletes ↔ s'.rollStepCompletes) := by
  obtain ⟨hpair, hsrc, hview, -, -, -, hover, -⟩ := h
  have htarget : s.target = s'.target := funext fun p => by simp [State.target, hsrc, hview]
  have htargets : s.targets = s'.targets := by simp only [State.targets, htarget]
  have hrolled : s.rolledPairs = s'.rolledPairs := by
    simp only [State.rolledPairs, htarget, hpair, hover]
  exact ⟨htargets, hrolled, by simp only [State.rollStepCompletes, htargets, hrolled, hover]⟩

@[simp] theorem serviceABC_pend (snapshot : BitVec 4) (s : State) : (serviceABC snapshot s).pend = s.pend := by
  simp [serviceABC]

theorem serviceAll_sameRoll (snapshot : BitVec 4) {s s' : State} (h : s.SameRoll s') :
    (serviceAll snapshot s).SameRoll (serviceAll snapshot s') := by
  obtain ⟨-, hrolled, hcompletes⟩ := rollStep_congr h
  obtain ⟨hpair, hsrc, hview, hlast, hset, hroll, hover, hpend⟩ := h
  obtain ⟨hd | hidle, hs⟩ | ⟨hd, hs0, hr0, hc, hs⟩ | ⟨hd, hs0, hr0, hnot, hs⟩ := serviceAll_roll_cases snapshot s
  · rw [hs, serviceAll_of_not_d hd]
    simp [State.SameRoll, *]
  · rw [hs, serviceAll_of_no_roll_step (hset ▸ hroll ▸ hidle)]
    simp [State.SameRoll, *]
  · rw [hs, serviceAll_of_completing_step hd (hset ▸ hs0) (hroll ▸ hr0) (hcompletes.1 hc)]
    simp [State.SameRoll, *]
  · rw [hs, serviceAll_of_incomplete_step hd (hset ▸ hs0) (hroll ▸ hr0) (mt hcompletes.2 hnot)]
    simp [State.SameRoll, *]

theorem execTick_sameRoll {s s' : State} (h : s.SameRoll s') :
    ∃ t t', execTick s = .next t ∧ execTick s' = .next t' ∧ t.SameRoll t' := by
  obtain ⟨htargets, -, -⟩ := rollStep_congr h
  obtain ⟨hpair, hsrc, hview, hlast, hset, hroll, hover, hpend⟩ := id h
  obtain ⟨hs, ht⟩ | ⟨hs, hv, hr, ht⟩ | ⟨hs, hv, hr, ht⟩ | ⟨hs, hv, hr, ht⟩ | ⟨hs, hv, hr, ht⟩ := execTick_cases s
  · exact ⟨_, _, ht, execTick_of_setting (hset ▸ hs), h⟩
  · exact ⟨_, _, ht, execTick_starts_roll (hset ▸ hs) (hview ▸ hlast ▸ hv) (hroll ▸ hr), hpair, hsrc, hview, hview,
      hset, rfl, rfl, hpend⟩
  · exact ⟨_, _, ht, execTick_joins_roll (hset ▸ hs) (hview ▸ hlast ▸ hv) (hroll ▸ hr), hpair, hsrc, hview, hview,
      hset, hroll, hover, hpend⟩
  · exact ⟨_, _, ht, execTick_of_rolling (hset ▸ hs) (hview ▸ hlast ▸ hv) (hroll ▸ hr), h⟩
  · exact ⟨_, _, ht, execTick_of_no_roll (hset ▸ hs) (hview ▸ hlast ▸ hv) (hroll ▸ hr), htargets, hsrc, hview, hlast,
      hset, hroll, hover, hpend⟩

/-- Settles O60: an ill-formed command changes none of these registers; of the others each writes its operands or what
these registers decide. -/
theorem rollIgnoresTheScan : Obligations.RollIgnoresTheScan := by
  intro i s t s' t' h h' hpair hsrc hview hlast hset hroll hover hpend
  have hsame : s.SameRoll s' := ⟨hpair, hsrc, hview, hlast, hset, hroll, hover, hpend⟩
  suffices hnext : t.SameRoll t' from hnext
  by_cases hill : i.wellFormed = false
  · obtain ⟨_, -, hc⟩ := faultsArePrecise.2.1 i s hill
    obtain ⟨_, -, hc'⟩ := faultsArePrecise.2.1 i s' hill
    cases hc.symm.trans h
    cases hc'.symm.trans h'
    exact hsame
  cases i with
  | nop | rd | clrerr =>
    cases h
    cases h'
    exact hsame
  | fire ch =>
    cases h
    cases h'
    exact ⟨hpair, hsrc, hview, hlast, hset, hroll, hover, congrArg (pendAfterFire · ch) hpend⟩
  | setctl b b' =>
    cases h
    cases h'
    exact ⟨hpair, hsrc, hview, hlast, rfl, hroll, hover, hpend⟩
  | dispatch =>
    rw [exec_dispatch] at h h'
    cases h
    cases h'
    rw [hpend]
    exact serviceAll_sameRoll s'.pend ⟨hpair, hsrc, hview, hlast, hset, hroll, hover, rfl⟩
  | tick =>
    obtain ⟨u, u', hu, hu', hnext⟩ := execTick_sameRoll hsame
    cases hu.symm.trans h
    cases hu'.symm.trans h'
    exact hnext
  | wpair p d =>
    cases exec_effect h with
    | refused _ _ h0 => exact absurd h0 hill
    | wpair _ _ q hq =>
      cases exec_effect h' with
      | refused _ _ h0 => exact absurd h0 hill
      | wpair _ _ q' hq' =>
        obtain rfl : q' = q := Fin.ext (hq'.trans hq.symm)
        exact ⟨congrArg (·.set q' d) hpair, hsrc, hview, hlast, hset, hroll, hover, hpend⟩
  | setview v =>
    cases exec_effect h with
    | refused _ _ h0 => exact absurd h0 hill
    | setview _ w hw =>
      cases exec_effect h' with
      | refused _ _ h0 => exact absurd h0 hill
      | setview _ w' hw' =>
        exact ⟨hpair, hsrc, View.code_injective (hw.trans hw'.symm), hlast, hset, hroll, hover, hpend⟩
  | ldsrc f n =>
    cases exec_effect h with
    | refused _ _ h0 => exact absurd h0 hill
    | ldsrc _ _ g hg =>
      cases exec_effect h' with
      | refused _ _ h0 => exact absurd h0 hill
      | ldsrc _ _ g' hg' =>
        obtain rfl : g' = g := Fin.ext (hg'.trans hg.symm)
        exact ⟨hpair, congrArg (·.set g' n) hsrc, hview, hlast, hset, hroll, hover, hpend⟩

end Sys2Proof.Machine
end

section
/-!
PROOF. Whole rolls (41_animation.md R145 to R147): what one ROLLSTEP does to the digits and to OVER, the steps up to the
floor, and the steps past it.
-/

namespace Sys2Proof.Machine

/-! ### One ROLLSTEP -/

/-- What a ROLLSTEP leaves. -/
def State.rollStepped (s : State) : State := (s.firedOnce .d).dispatched

theorem afterCommands_rollSteps (k : Nat) (s : State) :
    afterCommands (rollSteps k) s = .next { State.rollStepped^[k] s with presented := [] } := by
  induction k generalizing s with
  | zero => rfl
  | succ k ih =>
    have hfire : exec (.fire .d) s.openPorts = .next (s.firedOnce .d) := rfl
    have hdispatch : exec .dispatch (s.firedOnce .d).openPorts = .next s.rollStepped := exec_dispatch _
    calc afterCommands (rollSteps (k + 1)) s
      _ = afterCommands (.dispatch :: rollSteps k) (s.firedOnce .d) := afterCommands_cons_of_exec hfire _
      _ = afterCommands (rollSteps k) s.rollStepped := afterCommands_cons_of_exec hdispatch _
      _ = _ := ih s.rollStepped

@[simp] theorem rollStepped_src (s : State) : s.rollStepped.src = s.src := serviceAll_src _ _
@[simp] theorem rollStepped_view (s : State) : s.rollStepped.view = s.view := serviceAll_view _ _
@[simp] theorem rollStepped_setting (s : State) : s.rollStepped.setting = s.setting := serviceAll_setting _ _
@[simp] theorem rollStepped_pend (s : State) : s.rollStepped.pend = 0 := serviceAll_pend _ _

@[simp] theorem rollStepped_targetDigit (s : State) (p : Fin 3) (k : Fin 2) :
    targetDigit s.rollStepped p k = targetDigit s p k :=
  targetDigit_congr (rollStepped_src s) (rollStepped_view s) p k

theorem rollStepped_inv {s : State} (hI : s.Inv) : s.rollStepped.Inv :=
  serviceAll_keeps_inv _ { hI with }

/-- A roll is running outside set mode, in a state that meets the invariants. -/
structure State.Rolls (s : State) : Prop where
  inv : s.Inv
  rolling : s.rolling = true
  setting : s.setting = false

theorem rollStepped_pair {s : State} (h : s.Rolls) : s.rollStepped.pair = s.rolledPairs :=
  serviceAll_pair_of_roll_step (channelSet_pendAfterFire_self s.pend .d) h.setting h.rolling

/-- The state that a ROLLSTEP's DISPATCH services. -/
def State.rollServiced (s : State) : State := { (s.firedOnce .d).openPorts with pend := 0 }

theorem rollStepped_of_incomplete {s : State} (h : s.Rolls) (hnot : ¬ s.rollStepCompletes) :
    s.rollStepped.Rolls ∧ s.rollStepped.overCount = overAfterStep s.overCount := by
  have hstep : s.rollStepped = (serviceABC (pendAfterFire s.pend .d) s.rollServiced).advanceRoll :=
    serviceAll_of_incomplete_step (channelSet_pendAfterFire_self s.pend .d) h.setting h.rolling hnot
  refine ⟨⟨rollStepped_inv h.inv, ?_, h.setting ▸ rollStepped_setting s⟩, ?_⟩
  · rw [hstep, State.advanceRoll_rolling, serviceABC_rolling]
    exact h.rolling
  · rw [hstep, State.advanceRoll_overCount, serviceABC_overCount]
    rfl

/-- `t` is where the roll of `s` has ended (41_animation.md R142). -/
structure State.RollEnded (s t : State) : Prop where
  rolling : t.rolling = false
  overCount : t.overCount = 0
  lastView : t.lastView = s.view
  announced : .rollDone ∈ t.strobes
  alone : s.pend = 0 → t.strobes = [.rollDone]
  digits : ∀ (p : Fin 3) (k : Fin 2), digitOf t.pair[p] k = targetDigit s p k

theorem rollStepped_of_completes {s : State} (h : s.Rolls) (hc : s.rollStepCompletes) :
    s.RollEnded s.rollStepped := by
  have hstep : s.rollStepped = (serviceABC (pendAfterFire s.pend .d) s.rollServiced).advanceRoll.completeRoll :=
    serviceAll_of_completing_step (channelSet_pendAfterFire_self s.pend .d) h.setting h.rolling hc
  have hdigits := ((rollStepCompletes_iff_digits h.inv.fields).1 hc).2
  rw [← rollStepped_pair h] at hdigits
  refine ⟨?rolling, ?overCount, ?lastView, ?announced, fun hp => ?alone, hdigits⟩
  case rolling => rw [hstep, State.completeRoll_rolling]
  case overCount => rw [hstep, State.completeRoll_overCount]
  case lastView =>
    rw [hstep, State.completeRoll_lastView, State.advanceRoll_view, serviceABC_view]
    rfl
  case announced => simp [hstep]
  case alone =>
    rw [hstep, hp]
    rfl

/-- A roll that ends after a ROLLSTEP more ends as this one does: the step keeps the view and the targets. -/
theorem State.RollEnded.of_rollStepped {s t : State} (h : s.rollStepped.RollEnded t) : s.RollEnded t where
  rolling := h.rolling
  overCount := h.overCount
  lastView := h.lastView.trans (rollStepped_view s)
  announced := h.announced
  alone _ := h.alone (rollStepped_pend s)
  digits p k := (h.digits p k).trans (rollStepped_targetDigit s p k)

/-! ### Digits and distances -/

theorem digitOf_le {s : State} (hI : s.Inv) (p : Fin 3) (k : Fin 2) : digitOf s.pair[p] k ≤ 9 := by
  obtain ⟨hlo, hhi⟩ := hI.bcd p
  match k with
  | 0 => exact (digitOf_zero _).trans_le hlo
  | 1 => exact (digitOf_one _).trans_le hhi

theorem digitDistance_eq_zero_iff {s : State} (hI : s.Inv) (p : Fin 3) (k : Fin 2) :
    digitDistance s p k = 0 ↔ digitOf s.pair[p] k = targetDigit s p k := by
  have hd := digitOf_le hI p k
  have ht := targetDigit_lt s p k
  rw [digitDistance]
  omega

theorem digitDistance_le (s : State) (p : Fin 3) (k : Fin 2) : digitDistance s p k ≤ 9 :=
  Nat.le_of_lt_succ (Nat.mod_lt _ (by decide))

theorem largestDistance_le_iff (s : State) (n : Nat) :
    largestDistance s ≤ n ↔ ∀ (p : Fin 3) (k : Fin 2), digitDistance s p k ≤ n := by
  simp [largestDistance, Fin.forall_fin_succ, and_assoc]

theorem largestDistance_le (s : State) : largestDistance s ≤ 9 :=
  (largestDistance_le_iff s 9).2 (digitDistance_le s)

/-- From the floor on the step that brings every digit to its target completes the roll. -/
theorem rollStepCompletes_iff_of_ge {s : State} (h : s.Rolls) (ho : 9 ≤ s.overCount.toNat) :
    s.rollStepCompletes ↔ largestDistance s.rollStepped = 0 := by
  have hdigits (p : Fin 3) (k : Fin 2) :
      digitDistance s.rollStepped p k ≤ 0 ↔ digitOf s.rolledPairs[p] k = targetDigit s p k := by
    rw [Nat.le_zero, digitDistance_eq_zero_iff (rollStepped_inv h.inv), rollStepped_pair h, rollStepped_targetDigit]
  rw [rollStepCompletes_iff_digits h.inv.fields, ← Nat.le_zero, largestDistance_le_iff]
  simp only [hdigits, and_iff_right_iff_imp]
  omega

/-! ### Up to the floor -/

/-- Up to the floor every digit turns (41_animation.md R141, R146). -/
theorem rollStepped_digit_of_le {s : State} (h : s.Rolls) (ho : s.overCount.toNat ≤ 9) (p : Fin 3) (k : Fin 2) :
    digitOf s.rollStepped.pair[p] k = (digitOf s.pair[p] k + 1) % 10 := by
  rw [rollStepped_pair h, digitOf_rolledPairs h.inv, if_neg]
  omega

theorem not_rollStepCompletes_of_lt {s : State} (ho : s.overCount.toNat < 9) : ¬ s.rollStepCompletes := by
  rintro ⟨hfloor, -⟩
  rw [overAfterStep_toNat] at hfloor
  omega

/-- The first steps of a roll: it runs on, every step counted, every digit turned. -/
theorem rolls_up_to_floor (j : Nat) {s : State} (h : s.Rolls) (hj : s.overCount.toNat + j ≤ 9) :
    (State.rollStepped^[j] s).Rolls ∧ (State.rollStepped^[j] s).overCount.toNat = s.overCount.toNat + j ∧
      ∀ (p : Fin 3) (k : Fin 2),
        digitOf (State.rollStepped^[j] s).pair[p] k = (digitOf s.pair[p] k + j) % 10 ∧
        targetDigit (State.rollStepped^[j] s) p k = targetDigit s p k := by
  induction j generalizing s with
  | zero =>
    refine ⟨h, rfl, fun p k => ⟨?_, rfl⟩⟩
    have hd := digitOf_le h.inv p k
    rw [Function.iterate_zero_apply, Nat.add_zero, Nat.mod_eq_of_lt (by omega)]
  | succ j ih =>
    obtain ⟨hrolls, hover⟩ := rollStepped_of_incomplete h (not_rollStepCompletes_of_lt (by omega))
    have hover' : s.rollStepped.overCount.toNat = s.overCount.toNat + 1 := by
      rw [hover, overAfterStep_toNat]
      omega
    obtain ⟨hrolls', hcount, hdigits⟩ := ih hrolls (by omega)
    rw [Function.iterate_succ_apply]
    refine ⟨hrolls', by omega, fun p k => ?_⟩
    obtain ⟨hdigit, htarget⟩ := hdigits p k
    have hone := rollStepped_digit_of_le h (by omega) p k
    exact ⟨by omega, htarget.trans (rollStepped_targetDigit s p k)⟩

/-! ### Past the floor -/

/-- Past the floor a digit at its target is held and every other comes one nearer (41_animation.md R141). -/
theorem rollStepped_distance_of_lt {s : State} (h : s.Rolls) (ho : 9 < s.overCount.toNat) (p : Fin 3) (k : Fin 2) :
    digitDistance s.rollStepped p k = digitDistance s p k - 1 := by
  have hd := digitOf_le h.inv p k
  have ht := targetDigit_lt s p k
  rw [digitDistance, digitDistance, rollStepped_targetDigit, rollStepped_pair h, digitOf_rolledPairs h.inv]
  split <;> omega

theorem rollStepped_largestDistance_of_lt {s : State} (h : s.Rolls) (ho : 9 < s.overCount.toNat) :
    largestDistance s.rollStepped = largestDistance s - 1 := by
  have hnew := (largestDistance_le_iff s.rollStepped _).1 le_rfl
  have hold := (largestDistance_le_iff s _).1 le_rfl
  simp only [rollStepped_distance_of_lt h ho] at hnew
  apply Nat.le_antisymm
  · refine (largestDistance_le_iff _ _).2 fun p k => ?_
    rw [rollStepped_distance_of_lt h ho]
    exact Nat.sub_le_sub_right (hold p k) 1
  · exact Nat.sub_le_of_le_add ((largestDistance_le_iff _ _).2 fun p k => Nat.le_add_of_sub_le (hnew p k))

/-- Past the floor a roll takes as many steps as the largest distance, and one if there is none. -/
theorem rolls_past_floor (m : Nat) {s : State} (h : s.Rolls) (ho : 9 < s.overCount.toNat)
    (hm : max (largestDistance s) 1 = m + 1) :
    (∀ j ≤ m, (State.rollStepped^[j] s).Rolls ∧
      (State.rollStepped^[j] s).overCount.toNat = min (s.overCount.toNat + j) 31) ∧
    s.RollEnded (State.rollStepped^[m + 1] s) := by
  have hdist := rollStepped_largestDistance_of_lt h ho
  have hcompletes := rollStepCompletes_iff_of_ge h (by omega)
  have hmax : s.overCount.toNat = min (s.overCount.toNat + 0) 31 := by have := s.overCount.isLt; omega
  induction m generalizing s with
  | zero =>
    refine ⟨fun j hj => ?_, rollStepped_of_completes h (hcompletes.2 (by omega))⟩
    obtain rfl := Nat.le_zero.1 hj
    exact ⟨h, hmax⟩
  | succ m ih =>
    obtain ⟨hrolls, hover⟩ := rollStepped_of_incomplete h (mt hcompletes.1 (by omega))
    have hcount : s.rollStepped.overCount.toNat = min (s.overCount.toNat + 1) 31 := by
      rw [hover, overAfterStep_toNat]
    obtain ⟨hrun, hend⟩ := ih hrolls (by omega) (by omega) (rollStepped_largestDistance_of_lt hrolls (by omega))
      (rollStepCompletes_iff_of_ge hrolls (by omega)) (by omega)
    refine ⟨fun j hj => ?_, hend.of_rollStepped⟩
    cases j with
    | zero => exact ⟨h, hmax⟩
    | succ j =>
      obtain ⟨hrolls', hcount'⟩ := hrun j (by omega)
      exact ⟨hrolls', by rw [Function.iterate_succ_apply]; omega⟩

/-- From the step at the floor on, a roll takes one step and as many more as the largest distance that step leaves. -/
theorem rolls_from_floor {s : State} (h : s.Rolls) (ho : s.overCount.toNat = 9) :
    (∀ j < largestDistance s.rollStepped, (State.rollStepped^[j + 1] s).Rolls ∧
      (State.rollStepped^[j + 1] s).overCount.toNat = 10 + j) ∧
    s.RollEnded (State.rollStepped^[largestDistance s.rollStepped + 1] s) := by
  have hcompletes := rollStepCompletes_iff_of_ge h ho.ge
  have hle := largestDistance_le s.rollStepped
  cases hd : largestDistance s.rollStepped with
  | zero => exact ⟨nofun, rollStepped_of_completes h (hcompletes.2 hd)⟩
  | succ m =>
    obtain ⟨hrolls, hover⟩ := rollStepped_of_incomplete h (mt hcompletes.1 (by omega))
    have hcount : s.rollStepped.overCount.toNat = 10 := by rw [hover, overAfterStep_toNat, ho]; rfl
    obtain ⟨hrun, hend⟩ := rolls_past_floor m hrolls (by omega) (by omega)
    refine ⟨fun j hj => ?_, hend.of_rollStepped⟩
    obtain ⟨hrolls', hcount'⟩ := hrun j (by omega)
    exact ⟨hrolls', by rw [Function.iterate_succ_apply]; omega⟩

theorem State.RollEnded.of_iterate {t : State} (j : Nat) {s : State} (h : (State.rollStepped^[j] s).RollEnded t) :
    s.RollEnded t := by
  induction j generalizing s with
  | zero => exact h
  | succ j ih => exact (ih (s := s.rollStepped) h).of_rollStepped

/-- Wherever a roll stands it ends within 19 steps, and within 9 past the floor. -/
theorem roll_ends {s : State} (h : s.Rolls) :
    ∃ k, 1 ≤ k ∧ k ≤ 19 ∧ (9 < s.overCount.toNat → k ≤ 9) ∧ s.RollEnded (State.rollStepped^[k] s) := by
  by_cases ho : 9 < s.overCount.toNat
  · have hle := largestDistance_le s
    obtain ⟨-, hend⟩ := rolls_past_floor (max (largestDistance s) 1 - 1) h ho (by omega)
    exact ⟨_, by omega, by omega, fun _ => by omega, hend⟩
  · obtain ⟨hrolls, hcount, -⟩ := rolls_up_to_floor (9 - s.overCount.toNat) h (by omega)
    obtain ⟨-, hend⟩ := rolls_from_floor hrolls (by omega)
    rw [← Function.iterate_add_apply] at hend
    have hle := largestDistance_le (State.rollStepped^[9 - s.overCount.toNat] s).rollStepped
    exact ⟨_, by omega, by omega, fun ho' => absurd ho' ho, hend.of_iterate _⟩

/-- From OVER = 0 the step at the floor, the tenth, has turned every digit back to where it began. -/
theorem tenth_step_distance {s : State} (h : s.Rolls) (ho : s.overCount = 0) :
    largestDistance (State.rollStepped^[9] s).rollStepped = largestDistance s := by
  have hzero : s.overCount.toNat = 0 := by rw [ho]; rfl
  obtain ⟨hrolls, hcount, hdigits⟩ := rolls_up_to_floor 9 h (by omega)
  have hdistance (p : Fin 3) (k : Fin 2) :
      digitDistance (State.rollStepped^[9] s).rollStepped p k = digitDistance s p k := by
    obtain ⟨hdigit, htarget⟩ := hdigits p k
    have hturned := rollStepped_digit_of_le hrolls (by omega) p k
    have hd := digitOf_le h.inv p k
    have hback : digitOf (State.rollStepped^[9] s).rollStepped.pair[p] k = digitOf s.pair[p] k := by omega
    rw [digitDistance, digitDistance, hback, rollStepped_targetDigit, htarget]
  simp only [largestDistance, hdistance]

/-! ### The statements -/

/-- Settles O40: nine steps reach the floor, the tenth has turned every digit once round, and the largest distance is
left. -/
theorem rollCompletesInExactlyNSteps : Obligations.RollCompletesInExactlyNSteps := by
  intro s hI hr hs ho
  have h : s.Rolls := ⟨hI, hr, hs⟩
  have hzero : s.overCount.toNat = 0 := by rw [ho]; rfl
  have hle := largestDistance_le s
  obtain ⟨hrolls, hcount, -⟩ := rolls_up_to_floor 9 h (by omega)
  obtain ⟨hrun, hend⟩ := rolls_from_floor hrolls (by omega)
  rw [tenth_step_distance h ho] at hrun hend
  refine ⟨by omega, fun k hk => ⟨_, afterCommands_rollSteps k s, ?runs⟩, ⟨_, afterCommands_rollSteps _ s, ?ends⟩⟩
  case runs =>
    by_cases hk9 : k ≤ 9
    · obtain ⟨hrolls', hcount', -⟩ := rolls_up_to_floor k h (by omega)
      exact ⟨hrolls'.rolling, hcount'.trans (by omega)⟩
    · obtain ⟨j, rfl⟩ : ∃ j, k = j + 1 + 9 := ⟨k - 10, by omega⟩
      obtain ⟨hrolls', hcount'⟩ := hrun j (by omega)
      rw [Function.iterate_add_apply]
      exact ⟨hrolls'.rolling, hcount'.trans (by omega)⟩
  case ends =>
    have hsplit : State.rollStepped^[10 + largestDistance s] s =
        State.rollStepped^[largestDistance s + 1] (State.rollStepped^[9] s) := by
      rw [← Function.iterate_add_apply]
      congr 1
      omega
    have hpend : (State.rollStepped^[9] s).pend = 0 := rollStepped_pend (State.rollStepped^[8] s)
    have hfromStart := hend.of_iterate 9
    rw [hsplit]
    exact ⟨hend.rolling, hend.overCount, hfromStart.lastView, hend.alone hpend, hfromStart.digits⟩

/-- Settles O41: the digit after step j + 1 is j + 1 places on, and each digit stands at one such place. -/
theorem rollShowsEveryDigit : Obligations.RollShowsEveryDigit := by
  intro s hI hr hs ho p k d
  have h : s.Rolls := ⟨hI, hr, hs⟩
  have hzero : s.overCount.toNat = 0 := by rw [ho]; rfl
  have hd := digitOf_le hI p k
  have hshown (j : Fin 10) :
      digitOf (State.rollStepped^[j.val + 1] s).pair[p] k = (digitOf s.pair[p] k + (j.val + 1)) % 10 := by
    obtain ⟨hrolls, hcount, hdigits⟩ := rolls_up_to_floor j.val h (by omega)
    have hturned := rollStepped_digit_of_le hrolls (by omega) p k
    have hdigit := (hdigits p k).1
    rw [Function.iterate_succ_apply']
    omega
  refine ⟨⟨(d.val + 19 - digitOf s.pair[p] k) % 10, Nat.mod_lt _ (by decide)⟩,
    ⟨_, afterCommands_rollSteps _ s, (hshown _).trans (by dsimp only; omega)⟩, fun j' t ht hdigit => ?unique⟩
  case unique =>
    cases (afterCommands_rollSteps _ s).symm.trans ht
    have hplace := (hshown j').symm.trans hdigit
    exact Fin.ext (by dsimp only; omega)

/-- Settles O42: `roll_ends`, read on the run of the ROLLSTEPs. -/
theorem everyRollCompletes : Obligations.EveryRollCompletes := by
  intro s hI hr hs
  obtain ⟨k, hpos, hle, hfloor, hend⟩ := roll_ends ⟨hI, hr, hs⟩
  exact ⟨k, _, hpos, hle, hfloor, afterCommands_rollSteps k s, hend.rolling, hend.announced, hend.digits⟩

end Sys2Proof.Machine
end
